-- ==== Sys2Proof/Word.lean ====
section
/-! DEFINITION. The values the block moves: words, bytes and bit sequences. -/

namespace Sys2Proof

/-- A 32-bit register or command word; bit 31 is the most significant (R73, 20_memory.md). -/
abbrev Word := BitVec 32

/-- One byte of a byte string (R10, 00_scope.md). -/
abbrev Byte := BitVec 8

/-- A bit sequence in transmission order, index 0 first on the air (R9, 00_scope.md; R71, 20_memory.md). -/
abbrev Bits := List Bool

end Sys2Proof
end

