-- ==== Sys2Proof/Config.lean ====
section
/-! DEFINITION. What an instance of the block fixes (R6, 00_scope.md), the events of the world outside it (R12), and the
free values: constants with no body, of which nothing can be proved. -/

namespace Sys2Proof

/-- The data operand of a command (R117, 30_encoding.md), each kind with its own length. -/
inductive Operand where
  /-- The empty operand. -/
  | empty
  /-- A bit sequence: CRC_SEQ, DECODE, PUSH_CAND. -/
  | bits (s : Bits)
  /-- One 32-bit word: CFG_WRITE. -/
  | word (v : Word)
  /-- Three byte strings: ENCODE. -/
  | strings (addr payload crcb : List Byte)
  deriving DecidableEq, Repr, Inhabited

/-- One step some agent takes next (R5, R12). Commands of the host, the front end and the consumers are one kind, since
the block does not check who issues them (R301, 60_exceptions.md). -/
inductive Event where
  /-- An agent issues a command word with its data operand. -/
  | command (word : Word) (operand : Operand)
  /-- The pipeline worker's turn: PIPE_TICK_RX or PIPE_TICK_IDLE, whichever is enabled. -/
  | pipeTurn
  /-- The fan-out worker's turn: FAN_DELIVER or FAN_IDLE, whichever is enabled. -/
  | fanTurn
  /-- The RESET input is asserted (R330, 70_reset_and_hazards.md). -/
  | reset
  deriving DecidableEq, Repr, Inhabited

namespace Config

/-- MAX_CHANNELS, the fixed capacity of the channel table (R6, R31). -/
abbrev maxChannels : Nat := 240

/-- TS_WIDTH, the fixed width of a timestamp in bits (R6). -/
abbrev tsWidth : Nat := 64

/-- The implementation parameters of R6 that are not registers. -/
structure Params where
  /-- MAX_SUBS, 1 to 16 subscriber slots (D21). -/
  maxSubs : Nat
  /-- QUEUE_DEPTH: `none` is unbounded (D19). -/
  queueDepth : Option Nat
  /-- MAX_CAND_BITS: `none` is unbounded (D20). -/
  maxCandBits : Option Nat
  /-- ACCEPT_OVERLONG_LENGTH (D13). -/
  acceptOverlongLength : Bool
  /-- MAX_PAYLOAD in bytes. -/
  maxPayload : Nat
  /-- PREAMBLE. -/
  preamble : Bits
  /-- MAX_CHANNELS, the capacity of the channel table (D10). -/
  maxChannels : Nat
  /-- TIME_UNIT in microseconds: the unit of the clock's samples and of the timeouts (D7). -/
  timeUnitMicros : Nat
  /-- TS_WIDTH in bits (D7). -/
  tsWidth : Nat
  deriving DecidableEq, Repr

/-- This spec's instance of R6. -/
def params : Params where
  maxSubs := 16
  queueDepth := none
  maxCandBits := none
  acceptOverlongLength := false
  maxPayload := 32
  preamble := [false, true, false, true, false, true, false, true]
  maxChannels := maxChannels
  timeUnitMicros := 1
  tsWidth := tsWidth

/-- The number of slots a 4-bit slot field can name (R115): MAX_SUBS is at most this. -/
abbrev slots : Nat := 16

end Config

/-- A count of TIME_UNITs, TS_WIDTH bits wide: the clock's sample (R30, 10_state.md). -/
abbrev Timestamp := BitVec Config.tsWidth

namespace Config

/-- FREE VALUE (notes/assumptions/2.md): which step is taken next, where the state's own list says nothing. -/
opaque nextEvent : Nat → Event

/-- FREE VALUE (notes/assumptions/3.md): what the clock agent draws, where the state's own list says nothing. -/
opaque clockDraw : Nat → Timestamp

/-- FREE VALUE (notes/assumptions/4.md): whether the tuner returns ok for the frequency, where the state's own list says
nothing. -/
opaque tunerReturnsOk : Nat → Word → Bool

/-- FREE VALUE (notes/assumptions/7.md): what a worker takes for a register that holds no value. -/
opaque unwrittenRegister : Nat → Word

/-- FREE VALUE (notes/assumptions/8.md): the channel a hop enters when the channel table is empty. -/
opaque emptyTableChannel : BitVec 8 → BitVec 8

end Config

end Sys2Proof
end

