-- ==== Sys2Proof/Syntax.lean ====
section
/-! DEFINITION. The commands, one constructor per row of spec/opcode_table.json, with the fields of the command word
(R125, 30_encoding.md). The data operand travels beside the word (R117) and is no part of the syntax. -/

namespace Sys2Proof

/-- A command word, decoded. Field widths are those of formats N, C, B, E, D, R, P and Q (R109 to R116). -/
inductive Instr where
  /-- CRC_SEQ with w = 0 (R147). -/
  | crcSeqW0
  /-- CRC_SEQ with w = 1 (R145). -/
  | crc8
  /-- CRC_SEQ with w = 2 (R146). -/
  | crc16
  /-- CRC_SEQ with w = 3 (R147). -/
  | crcSeqW3
  /-- CRC_INIT, `w` the CRC length in bytes (R148). -/
  | crcInit (w : BitVec 2)
  /-- CRC_SHIFT, `b` the input bit (R149). -/
  | crcShift (b : Bool)
  /-- CRC_READ (R150). -/
  | crcRead
  /-- ENCODE, format E (R112, R171). -/
  | encode (w : BitVec 2) (a : BitVec 4) (noack : Bool) (pid8 len8 : BitVec 8)
  /-- DECODE, format D (R113, R176). -/
  | decode (w : BitVec 2) (a : BitVec 4) (raw : Bool) (tries : BitVec 8)
  /-- CFG_READ of register number `r` (R211). -/
  | cfgRead (r : BitVec 8)
  /-- CFG_WRITE of register number `r` (R212). -/
  | cfgWrite (r : BitVec 8)
  /-- START (R214). -/
  | start
  /-- STOP (R217). -/
  | stop
  /-- PUSH_CAND (R218). -/
  | pushCand
  /-- CONNECT of slot `k` (R261). -/
  | connect (k : BitVec 4)
  /-- POP of slot `k` (R262). -/
  | pop (k : BitVec 4)
  deriving DecidableEq, Repr

end Sys2Proof
end

