-- ==== Sys2Proof/Machine/State.lean ====
section
/-! DEFINITION. The block's architectural state as plain data (R20, 10_state.md), the interface to the world outside it,
and the state after RESET (R58). -/

namespace Sys2Proof.Machine

/-- Faults: there are none. The block has no trap (R299, 60_exceptions.md), every failing command answers a status and
goes on (R291), and the fatal condition is a worker state (R293). No step of the model raises a fault. -/
inductive Fault where
  deriving DecidableEq, Repr

/-- Refusals. -/
inductive Refusal where
  /-- Raised by `exec` for an instruction that has no meaning in the model yet: safe. No instruction is in this case. -/
  | notModelled (mnemonic : String)
  deriving DecidableEq, Repr

/-- The status codes of R290 (60_exceptions.md); codes 10 to 15 are never returned. -/
inductive Status where
  | ok
  | invalidPayload
  | invalidPacketId
  | unsupportedCrcLength
  | noValidFrame
  | setFrequencyFailed
  | illegalCommand
  | configError
  | invalidState
  | queueEmpty
  deriving DecidableEq, Repr

/-- A frame record (R35, 10_state.md). -/
structure Frame where
  address : List Byte
  payloadLength : Nat
  payload : List Byte
  pid : BitVec 2
  noack : Bool
  crc : List Byte
  deriving DecidableEq, Repr

/-- The data of a response (R118, 30_encoding.md). -/
inductive Data where
  | nothing
  | word (v : Word)
  | bits (s : Bits)
  | frame (f : Frame)
  deriving DecidableEq, Repr

/-- The response of a command (R118). -/
structure Response where
  status : Status
  data : Data
  deriving DecidableEq, Repr

/-- The width selector `crc_w` of R22: 0, 1 or 2; the value 3 is never held. -/
inductive CrcWidth where
  | unconfigured
  | byte
  | half
  deriving DecidableEq, Repr

/-- The CRC unit's streaming register (R22). -/
structure CrcUnit where
  /-- `crc_reg`. -/
  reg : BitVec 16
  /-- `crc_w`. -/
  width : CrcWidth
  deriving DecidableEq, Repr

/-- The scan mode (R25). -/
inductive Mode where
  | sweeping
  | locked
  deriving DecidableEq, Repr

/-- The scan state (R24). -/
structure ScanState where
  channelIndex : BitVec 8
  mode : Mode
  lastSuccess : Timestamp
  activeTimeout : Word
  deriving DecidableEq, Repr

/-- The decode pipeline worker's lifecycle (R27). -/
inductive PipeState where
  | idle
  | running
  | stopped
  | faulted
  deriving DecidableEq, Repr

/-- The fan-out worker's lifecycle (R27). -/
inductive FanState where
  | idle
  | running
  | stopped
  deriving DecidableEq, Repr

/-- The configuration registers (R43 to R50) and the channel table (R31). `none` is the spec's own state "unwritten":
the register holds no value (R41, R333). -/
structure Regs where
  addrLen : BitVec 4
  crcLen : BitVec 2
  maxTries : BitVec 8
  rawMode : Bool
  lockedTimeout : Option Word
  sweepTimeout : Option Word
  pollInterval : Word
  chanCount : BitVec 8
  chanFreq : Vector (Option Word) Config.maxChannels
  deriving DecidableEq, Repr

/-- The world outside the block, as plain data: what its agents do next and what they have been answered. These are the
MODEL's own fields (notes/assumptions/1.md, 3.md, 4.md, 5.md, 11.md). -/
structure Env where
  /-- The steps the agents take next, the next one first. -/
  pending : List Event
  /-- The data operand beside the command word in progress (R117). -/
  operand : Operand
  /-- The response of the latest command (R118). -/
  response : Option Response
  /-- The clock agent's coming draws. -/
  clockIn : List Timestamp
  /-- The tuner agent's coming answers, `true` for ok. -/
  tunerIn : List Bool
  /-- The frequencies of the `setFrequency` calls made, oldest first (R225). -/
  tunerLog : List Word
  /-- How many free values have been drawn. -/
  draws : Nat
  deriving DecidableEq, Repr

/-- The state of one block instance (R20, R59). -/
structure State where
  /-- The CRC unit (R22). -/
  crc : CrcUnit
  /-- The scan state (R24). -/
  scan : ScanState
  /-- `pipe_state` (R27). -/
  pipeState : PipeState
  /-- `fan_state` (R27). -/
  fanState : FanState
  /-- `stop_req` (R28). -/
  stopReq : Bool
  /-- `fault_cause` (R29). -/
  faultCause : Status
  /-- `last_now` (R30). -/
  lastNow : Timestamp
  /-- The configuration registers and the channel table (R31, R43 to R50). -/
  regs : Regs
  /-- The raw-bit queue (R33), head first. -/
  inq : List Bits
  /-- The frame queue (R33), head first. -/
  frameq : List Frame
  /-- The per-subscriber queues (R33), head first. -/
  subq : Vector (List Frame) Config.slots
  /-- The subscriber set (R34), bit k for slot k. -/
  connected : BitVec 16
  /-- The world outside the block. -/
  env : Env
  deriving DecidableEq, Repr

/-- The configuration registers after RESET (R58). -/
def Regs.reset : Regs where
  addrLen := 5
  crcLen := 2
  maxTries := 8
  rawMode := true
  lockedTimeout := none
  sweepTimeout := none
  pollInterval := 100000
  chanCount := 0
  chanFreq := Vector.replicate Config.maxChannels none

/-- No step is placed, no draw is made, nothing has been answered. -/
def Env.initial : Env where
  pending := []
  operand := .empty
  response := none
  clockIn := []
  tunerIn := []
  tunerLog := []
  draws := 0

/-- The state after RESET (R58, R330). -/
def State.reset : State where
  crc := ⟨0, .unconfigured⟩
  scan := ⟨0, .sweeping, 0, 0⟩
  pipeState := .idle
  fanState := .idle
  stopReq := false
  faultCause := .ok
  lastNow := 0
  regs := .reset
  inq := []
  frameq := []
  subq := Vector.replicate Config.slots []
  connected := 0
  env := .initial

end Sys2Proof.Machine
end

