-- ==== Sys2Proof/Machine/Bits.lean ====
section
/-! DEFINITION. Bit sequences and byte strings (R9, R10, 00_scope.md). -/

namespace Sys2Proof.Machine

/-- `s.slice(i, n)`: the `n` bits from index `i` (R9). -/
def slice (s : Bits) (i n : Nat) : Bits := (s.drop i).take n

/-- `s.at(i)` (R9), used only inside `s`. -/
def bitAt (s : Bits) (i : Nat) : Bool := s.getD i false

/-- `uint(s)`: the first bit is the most significant (R9). -/
def uint (s : Bits) : Nat := s.foldl (fun acc b => 2 * acc + b.toNat) 0

/-- `bits_N(v)`: bit N-1 first, bit 0 last (R9). -/
def bitsOf : Nat → Nat → Bits
  | 0, _ => []
  | n + 1, v => v.testBit n :: bitsOf n v

/-- `bytes_to_bits(B)`: first byte first, each byte MSB first (R10). -/
def bytesToBits (bytes : List Byte) : Bits := bytes.flatMap fun b => bitsOf 8 b.toNat

/-- `bits_to_bytes(s)`: byte `j` is `uint(s.slice(8j, 8))` (R10). -/
def bitsToBytes (s : Bits) : List Byte :=
  (List.range (s.length / 8)).map fun j => BitVec.ofNat 8 (uint (slice s (8 * j) 8))

/-- `be_C(v)`: the `c` bytes of `v`, high byte first (R10). -/
def beBytes (c v : Nat) : List Byte :=
  (List.range c).map fun j => BitVec.ofNat 8 (v >>> (8 * (c - 1 - j)))

end Sys2Proof.Machine
end

