-- ==== Sys2Proof/Machine/Crc.lean ====
section
/-! DEFINITION. The CRC unit's LFSR (R140 to R144, 40_crc.md). -/

namespace Sys2Proof.Machine

/-- `CrcStep(W, P, r, b)`: shift left, and XOR the truncated polynomial if the top bit differs from the input (R142). -/
def crcStep (p r : BitVec n) (b : Bool) : BitVec n :=
  if r.msb != b then (r <<< 1) ^^^ p else r <<< 1

/-- The truncated CRC8 polynomial, 0x107 without its top term (R141; UNVERIFIED by any fixture, notes/assumptions/16.md). -/
def crc8Poly : BitVec 8 := 0x07

/-- The CRC8 initial register (R141; UNVERIFIED by any fixture, notes/assumptions/16.md). -/
def crc8Init : BitVec 8 := 0xFF

/-- The truncated CRC16 polynomial, 0x11021 without its top term (R141). -/
def crc16Poly : BitVec 16 := 0x1021

/-- The CRC16 initial register (R141). -/
def crc16Init : BitVec 16 := 0xFFFF

/-- `CRC_1(s)` (R143). -/
def crc8 (s : Bits) : BitVec 8 := s.foldl (crcStep crc8Poly) crc8Init

/-- `CRC_2(s)` (R143). -/
def crc16 (s : Bits) : BitVec 16 := s.foldl (crcStep crc16Poly) crc16Init

/-- `CRC_C(s)` as a number; a length other than 1 or 2 bytes is UnsupportedCrcLength (R144). -/
def crcOf (c : Nat) (s : Bits) : Except Status Nat :=
  match c with
  | 1 => .ok (crc8 s).toNat
  | 2 => .ok (crc16 s).toNat
  | _ => .error .unsupportedCrcLength

/-- The streaming register right after CRC_INIT of a `w`-byte CRC (R148). -/
def CrcUnit.init (w : BitVec 2) : Except Status CrcUnit :=
  match w.toNat with
  | 1 => .ok ⟨crc8Init.setWidth 16, .byte⟩
  | 2 => .ok ⟨crc16Init, .half⟩
  | _ => .error .unsupportedCrcLength

/-- The streaming register after one CRC_SHIFT of `b` (R149). -/
def CrcUnit.shift (u : CrcUnit) (b : Bool) : Except Status CrcUnit :=
  match u.width with
  | .unconfigured => .error .invalidState
  | .byte => .ok { u with reg := (crcStep crc8Poly (u.reg.setWidth 8) b).setWidth 16 }
  | .half => .ok { u with reg := crcStep crc16Poly u.reg b }

/-- The value CRC_READ answers (R150). -/
def CrcUnit.read (u : CrcUnit) : Except Status Word :=
  match u.width with
  | .unconfigured => .error .invalidState
  | .byte => .ok ((u.reg.setWidth 8).setWidth 32)
  | .half => .ok (u.reg.setWidth 32)

end Sys2Proof.Machine
end

