-- ==== Sys2Proof/Machine/Codec.lean ====
section
/-! DEFINITION. The frame codec (41_frame_codec.md) over the frame bit format (R101 to R107, 30_encoding.md). It holds
no state (R23, R170). -/

namespace Sys2Proof.Machine

/-- The bits the CRC covers: address, length, pid, noack, payload (R101, R103). -/
def headerBits (addr payload : List Byte) (len pid : Nat) (noack : Bool) : Bits :=
  bytesToBits addr ++ bitsOf 6 len ++ bitsOf 2 pid ++ [noack] ++ bytesToBits payload

/-- `Encode` (R171): the checks in the order of R172, then the frame bits with the caller's CRC bytes (R173, R174). -/
def encodeFrame (addr payload crcb : List Byte) (pid8 len8 w : Nat) (noack : Bool) : Except Status Bits :=
  if Config.params.maxPayload < len8 then .error .invalidPayload
  else if 3 < pid8 then .error .invalidPacketId
  else if w ≠ 1 ∧ w ≠ 2 then .error .unsupportedCrcLength
  else .ok (headerBits addr payload len8 pid8 noack ++ bytesToBits crcb)

/-- Every offset at which the preamble stands, ascending, overlaps allowed (R177). -/
def preambleOffsets (s : Bits) : List Nat :=
  (List.range (s.length + 1 - Config.params.preamble.length)).filter fun i =>
    slice s i Config.params.preamble.length == Config.params.preamble

/-- The candidate offsets: the first `tries` preambles in raw mode (R177, R179), else offset 0 alone (R178). -/
def candidates (s : Bits) (raw : Bool) (tries : Nat) : List Nat :=
  if raw then (preambleOffsets s).take tries else [0]

/-- The first address bit of a candidate, after its preamble (R181). -/
def fieldBase (off : Nat) : Nat := off + Config.params.preamble.length

/-- The decoded length field of the candidate at field base `q` (R186). -/
def lengthField (s : Bits) (a q : Nat) : Nat := uint (slice s (q + 8 * a) 6)

/-- The fields of a frame whose body and CRC fit in `s` (R186, R188), `got` the extracted CRC. -/
def frameAt (s : Bits) (a c q len got : Nat) : Frame where
  address := bitsToBytes (slice s q (8 * a))
  payloadLength := len
  payload := bitsToBytes (slice s (q + 8 * a + 9) (8 * len))
  pid := BitVec.ofNat 2 (uint (slice s (q + 8 * a + 6) 2))
  noack := bitAt s (q + 8 * a + 8)
  crc := beBytes c got

/-- One candidate: `none` where it is skipped or its CRC does not match, a status where it ends the decode (R182 to R187).
`overlong` is ACCEPT_OVERLONG_LENGTH. -/
def tryCandidate (overlong : Bool) (s : Bits) (a c off : Nat) : Except Status (Option Frame) :=
  let q := fieldBase off
  let len := lengthField s a q
  let crcAt := q + 8 * a + 9 + 8 * len
  if s.length < q + 8 * a + 6 then .ok none
  else if Config.params.maxPayload < len ∧ !overlong then .ok none
  else if s.length < crcAt + 8 * c then .ok none
  else
    match crcOf c (slice s q (8 * a + 9 + 8 * len)) with
    | .error e => .error e
    | .ok expected =>
      let got := uint (slice s crcAt (8 * c))
      if expected = got then .ok (some (frameAt s a c q len got)) else .ok none

/-- The candidates in order, the first match wins (R180), NoValidFrame when none is left (R189). -/
def firstFrame (overlong : Bool) (s : Bits) (a c : Nat) : List Nat → Except Status Frame
  | [] => .error .noValidFrame
  | off :: rest =>
    match tryCandidate overlong s a c off with
    | .error e => .error e
    | .ok (some f) => .ok f
    | .ok none => firstFrame overlong s a c rest

/-- `Decode(s, A, C, raw, T)` (R176) under a given ACCEPT_OVERLONG_LENGTH. -/
def decodeFrameWith (overlong : Bool) (s : Bits) (a c : Nat) (raw : Bool) (tries : Nat) : Except Status Frame :=
  firstFrame overlong s a c (candidates s raw tries)

/-- `Decode(s, A, C, raw, T)` (R176) of this spec's parameters (R6). -/
def decodeFrame (s : Bits) (a c : Nat) (raw : Bool) (tries : Nat) : Except Status Frame :=
  decodeFrameWith Config.params.acceptOverlongLength s a c raw tries

end Sys2Proof.Machine
end

