-- ==== Sys2Proof/WellFormed.lean ====
section
/-! DEFINITION. Which decoded command words have no reserved field value (R122, 30_encoding.md). -/

namespace Sys2Proof

/-- No field holds a reserved value: in formats E and D the address length A = 0 is reserved, and no other field value
of any format is (R122). A command that is not well formed still runs: it answers IllegalCommand. -/
def Instr.wellFormed : Instr → Bool
  | .encode _ a _ _ _ => a != 0
  | .decode _ a _ _ => a != 0
  | .crcSeqW0 => true
  | .crc8 => true
  | .crc16 => true
  | .crcSeqW3 => true
  | .crcInit _ => true
  | .crcShift _ => true
  | .crcRead => true
  | .cfgRead _ => true
  | .cfgWrite _ => true
  | .start => true
  | .stop => true
  | .pushCand => true
  | .connect _ => true
  | .pop _ => true

end Sys2Proof
end

