-- ==== Sys2Proof/Decode.lean ====
section
/-! DEFINITION. The command word's decoder and encoder (R108 to R116, R119 to R123, R125, 30_encoding.md). -/

namespace Sys2Proof

/-- Why a command word is no command. Either way the command answers IllegalCommand and changes nothing. -/
inductive Reject where
  /-- Opcode 0x0, 0xE or 0xF (R120). -/
  | reservedOpcode
  /-- A 1 in a bit the word's format marks 0 (R121). -/
  | reservedBits
  deriving DecidableEq, Repr

/-- `w[hi:lo]` with `n = hi - lo + 1` bits (R8, 00_scope.md). -/
def field (w : Word) (lo n : Nat) : BitVec n := w.extractLsb' lo n

/-- One bit of the word. -/
def bitField (w : Word) (i : Nat) : Bool := w.getLsbD i

/-- The reserved-bit check of R121: the `n` low bits from bit `lo` are all 0. -/
def ifZero (w : Word) (lo n : Nat) (i : Instr) : Except Reject Instr :=
  if field w lo n = 0 then .ok i else .error .reservedBits

/-- CRC_SEQ by its CRC length field (R110, R119): every value executes. -/
def crcSeq (w : BitVec 2) : Instr :=
  match w.toNat with
  | 0 => .crcSeqW0
  | 1 => .crc8
  | 2 => .crc16
  | _ => .crcSeqW3

/-- Decoding by the opcode map (R119), then the reserved bits of the format (R121), the first two steps of R123. -/
def decode (w : Word) : Except Reject Instr :=
  match (field w 28 4).toNat with
  | 0x1 => ifZero w 0 26 (crcSeq (field w 26 2))
  | 0x2 => ifZero w 0 26 (.crcInit (field w 26 2))
  | 0x3 => ifZero w 1 27 (.crcShift (bitField w 0))
  | 0x4 => ifZero w 0 28 .crcRead
  | 0x5 => ifZero w 0 5 (.encode (field w 26 2) (field w 22 4) (bitField w 21) (field w 13 8) (field w 5 8))
  | 0x6 => ifZero w 0 13 (.decode (field w 26 2) (field w 22 4) (bitField w 21) (field w 13 8))
  | 0x7 => ifZero w 0 20 (.cfgRead (field w 20 8))
  | 0x8 => ifZero w 0 20 (.cfgWrite (field w 20 8))
  | 0x9 => ifZero w 0 28 .start
  | 0xA => ifZero w 0 28 .stop
  | 0xB => ifZero w 0 28 .pushCand
  | 0xC => ifZero w 0 24 (.connect (field w 24 4))
  | 0xD => ifZero w 0 24 (.pop (field w 24 4))
  | _ => .error .reservedOpcode

/-- A field's value at its place in a word: bit 0 of `v` at bit `lo` (R8, 00_scope.md; the shifts of R127). -/
def place (v : BitVec n) (lo : Nat) : Word := v.setWidth 32 <<< lo

/-- The command word of a command (R109 to R116, written as R127 writes the words). -/
def encode : Instr → Word
  | .crcSeqW0 => place 0x1#4 28 ||| place 0#2 26
  | .crc8 => place 0x1#4 28 ||| place 1#2 26
  | .crc16 => place 0x1#4 28 ||| place 2#2 26
  | .crcSeqW3 => place 0x1#4 28 ||| place 3#2 26
  | .crcInit w => place 0x2#4 28 ||| place w 26
  | .crcShift b => place 0x3#4 28 ||| place (BitVec.ofBool b) 0
  | .crcRead => place 0x4#4 28
  | .encode w a noack pid8 len8 =>
    place 0x5#4 28 ||| place w 26 ||| place a 22 ||| place (BitVec.ofBool noack) 21 ||| place pid8 13 ||| place len8 5
  | .decode w a raw tries =>
    place 0x6#4 28 ||| place w 26 ||| place a 22 ||| place (BitVec.ofBool raw) 21 ||| place tries 13
  | .cfgRead r => place 0x7#4 28 ||| place r 20
  | .cfgWrite r => place 0x8#4 28 ||| place r 20
  | .start => place 0x9#4 28
  | .stop => place 0xA#4 28
  | .pushCand => place 0xB#4 28
  | .connect k => place 0xC#4 28 ||| place k 24
  | .pop k => place 0xD#4 28 ||| place k 24

/-- The instruction in an instruction whose bits are `w`, numbered as spec/opcode_table.json numbers them. Every command
word is exactly 32 bits (R126); bits above `nbits` are 0, and a longer instruction is none of this block's. -/
def decodeTableWord (nbits w : Nat) : Option Instr :=
  if nbits ≤ 32 then (decode (BitVec.ofNat 32 (w % 2 ^ nbits))).toOption else none

end Sys2Proof
end

