-- ==== Sys2Proof/Machine/Flags.lean ====
section
/-! DEFINITION. The encodings of the status fields and the read-only registers computed from state (R25, R27, R42, R51
to R55, 10_state.md; R290, 60_exceptions.md). The block has no condition codes (R38). -/

namespace Sys2Proof.Machine

/-- The 4-bit code of a status (R290). -/
def Status.code : Status → BitVec 4
  | .ok => 0
  | .invalidPayload => 1
  | .invalidPacketId => 2
  | .unsupportedCrcLength => 3
  | .noValidFrame => 4
  | .setFrequencyFailed => 5
  | .illegalCommand => 6
  | .configError => 7
  | .invalidState => 8
  | .queueEmpty => 9

/-- The PIPE_STATE code (R27). -/
def PipeState.code : PipeState → BitVec 2
  | .idle => 0
  | .running => 1
  | .stopped => 2
  | .faulted => 3

/-- The FAN_STATE code (R27). -/
def FanState.code : FanState → BitVec 2
  | .idle => 0
  | .running => 1
  | .stopped => 2

/-- The MODE bit (R25). -/
def Mode.code : Mode → BitVec 1
  | .sweeping => 0
  | .locked => 1

/-- The `crc_w` code (R22). -/
def CrcWidth.code : CrcWidth → BitVec 2
  | .unconfigured => 0
  | .byte => 1
  | .half => 2

/-- STATUS (R42). -/
def State.statusWord (s : State) : Word :=
  place s.pipeState.code 0 ||| place s.fanState.code 2 ||| place (BitVec.ofBool s.stopReq) 4
    ||| place s.scan.mode.code 5 ||| place s.scan.channelIndex 8

/-- SUBS_MASK (R53). -/
def State.subsMask (s : State) : Word := s.connected.setWidth 32

/-- FAULT_CAUSE (R54). -/
def State.faultCauseWord (s : State) : Word := s.faultCause.code.setWidth 32

/-- CRC_STATE (R55). -/
def State.crcStateWord (s : State) : Word := place s.crc.reg 0 ||| place s.crc.width.code 16

/-- LAST_SUCCESS_LO (R52). -/
def State.lastSuccessLo (s : State) : Word := s.scan.lastSuccess.extractLsb' 0 32

/-- LAST_SUCCESS_HI (R52). -/
def State.lastSuccessHi (s : State) : Word := s.scan.lastSuccess.extractLsb' 32 32

end Sys2Proof.Machine
end

