-- ==== Sys2Proof/Machine/Ops.lean ====
section
/-! DEFINITION. The operations the commands and the workers share: responses and failures, the clock and the tuner,
entering and leaving Faulted, the queues. -/

namespace Sys2Proof.Machine

/-- The outcome of a command or a step. -/
abbrev Result := Host.Outcome State Fault Refusal

/-- `respond(status, data)` (R11, 00_scope.md; R118, 30_encoding.md). -/
def State.respond (s : State) (status : Status) (data : Data) : State :=
  { s with env := { s.env with response := some ⟨status, data⟩ } }

/-- A command completes with OK (R118). -/
def State.complete (s : State) (data : Data) : Result := .next (s.respond .ok data)

/-- `raise E`: the command ends with status `E`, no data and no other state change (R11, R291). This is all the taking of
an exception the block has (R299): nothing is saved, no mode changes, and the next command is decoded as usual (R300). -/
def State.raise (s : State) (e : Status) : Result := .next (s.respond e .nothing)

/-- A command that reads the state and writes none of it answers a value or a status. -/
def State.answer (s : State) : Except Status Data → Result
  | .ok d => s.complete d
  | .error e => s.raise e

/-- A push to a full queue has no step (R88, 20_memory.md): the agent holds its element and gets no response, and nothing
else changes. With an unbounded QUEUE_DEPTH this never happens (notes/assumptions/9.md). -/
def State.hold (s : State) : Result := .next { s with env := { s.env with response := none } }

/-- The fatal condition: the pipeline worker ends in Faulted with cause 5 (R226, R293). -/
def State.enterFaulted (s : State) : State :=
  { s with pipeState := .faulted, faultCause := .setFrequencyFailed }

/-- RESET: every piece of the block's state at its reset value (R330, R58); the world outside goes on. The only way out
of Faulted (R300). -/
def State.applyReset (s : State) : State := { State.reset with env := s.env }

/-- `clock.sample()`: the clock agent's draw, never below the last sample (R30; notes/assumptions/3.md). -/
def State.clockSample (s : State) : Timestamp :=
  let draw := s.env.clockIn.head?.getD (Config.clockDraw s.env.draws)
  if draw < s.lastNow then s.lastNow else draw

/-- `last_now <- now`, the draw used up. -/
def State.afterSample (s : State) : State :=
  { s with lastNow := s.clockSample
           env := { s.env with clockIn := s.env.clockIn.tail, draws := s.env.draws + 1 } }

/-- What `host.setFrequency(f)` returns, `true` for ok, as the tuner agent chooses (R225; notes/assumptions/4.md). -/
def State.tunerReturnsOk (s : State) (f : Word) : Bool :=
  s.env.tunerIn.head?.getD (Config.tunerReturnsOk s.env.draws f)

/-- The call of `host.setFrequency(f)` made, the answer used up (R225). -/
def State.afterCall (s : State) (f : Word) : State :=
  { s with env := { s.env with tunerIn := s.env.tunerIn.tail, tunerLog := s.env.tunerLog ++ [f]
                               draws := s.env.draws + 1 } }

/-- The synchronous tuner call of a hop, whose failure faults the pipeline (R224, R226). -/
def State.setFrequency (s : State) (f : Word) : State :=
  if s.tunerReturnsOk f then s.afterCall f else (s.afterCall f).enterFaulted

/-- Whether a push to a queue of this length is enabled (R88). -/
def hasRoom (len : Nat) : Bool :=
  match Config.params.queueDepth with
  | none => true
  | some depth => len < depth

/-- Entry `i` of the channel table, `none` where it is unwritten or outside the table (R31). -/
def Regs.freq (c : Regs) (i : Nat) : Option Word := (c.chanFreq[i]?).join

/-- SWEEP_TIMEOUT as a worker or START reads it. -/
def Regs.sweepValue (c : Regs) : Word := c.sweepTimeout.getD (Config.unwrittenRegister 0x06)

/-- LOCKED_TIMEOUT as a worker reads it. -/
def Regs.lockedValue (c : Regs) : Word := c.lockedTimeout.getD (Config.unwrittenRegister 0x05)

/-- CHAN_FREQ[i] as a worker or START reads it. -/
def Regs.freqValue (c : Regs) (i : Nat) : Word := (c.freq i).getD (Config.unwrittenRegister (0x10 + i))

/-- `(channelIndex + 1) mod CHAN_COUNT` (R224, R13); an empty table has no next channel (notes/assumptions/8.md). -/
def nextChannel (i n : BitVec 8) : BitVec 8 :=
  if n = 0 then Config.emptyTableChannel i else BitVec.ofNat 8 ((i.toNat + 1) % n.toNat)

/-- Slot `k` is connected (R34). -/
def State.isConnected (s : State) (k : Nat) : Bool := s.connected.getLsbD k

end Sys2Proof.Machine
end

