-- ==== Sys2Proof/Machine/Operands.lean ====
section
/-! DEFINITION. The data operand of each kind of command (R117, R121, 30_encoding.md), and the register numbers with
their reads and writes (R40 to R57, 10_state.md; R211 to R213, 42_scan_pipeline.md). -/

namespace Sys2Proof.Machine

/-- A bit sequence of 0 to MAX_CAND_BITS bits (R117). -/
def fitsCand (s : Bits) : Bool :=
  match Config.params.maxCandBits with
  | none => true
  | some limit => s.length ≤ limit

/-- Commands that carry the empty operand; any other operand is IllegalCommand (R117, R121). -/
def State.withEmpty (s : State) (run : Result) : Result :=
  match s.env.operand with
  | .empty => run
  | _ => s.raise .illegalCommand

/-- Commands that carry a bit sequence (R117, R121). -/
def State.withBits (s : State) (run : Bits → Result) : Result :=
  match s.env.operand with
  | .bits b => if fitsCand b then run b else s.raise .illegalCommand
  | _ => s.raise .illegalCommand

/-- Commands that carry one 32-bit word (R117, R121). -/
def State.withWord (s : State) (run : Word → Result) : Result :=
  match s.env.operand with
  | .word v => run v
  | _ => s.raise .illegalCommand

/-- ENCODE's three byte strings, of exactly `a`, `len` and `w` bytes (R117, R121). -/
def State.withStrings (s : State) (a len w : Nat) (run : List Byte → List Byte → List Byte → Result) : Result :=
  match s.env.operand with
  | .strings addr payload crcb =>
    if addr.length = a ∧ payload.length = len ∧ crcb.length = w then run addr payload crcb
    else s.raise .illegalCommand
  | _ => s.raise .illegalCommand

/-- The registers by name (R41). -/
inductive Reg where
  | status
  | addrLen
  | crcLen
  | maxTries
  | rawMode
  | lockedTimeout
  | sweepTimeout
  | pollInterval
  | chanCount
  | activeTimeout
  | lastSuccessLo
  | lastSuccessHi
  | subsMask
  | faultCause
  | crcState
  /-- 0x0F (R57). -/
  | reserved
  /-- CHAN_FREQ[i], number 0x10 + i (R56). -/
  | chanFreq (i : Nat)
  deriving DecidableEq, Repr

/-- The register a number names (R41). -/
def Reg.ofNumber (r : BitVec 8) : Reg :=
  match r.toNat with
  | 0x00 => .status
  | 0x01 => .addrLen
  | 0x02 => .crcLen
  | 0x03 => .maxTries
  | 0x04 => .rawMode
  | 0x05 => .lockedTimeout
  | 0x06 => .sweepTimeout
  | 0x07 => .pollInterval
  | 0x08 => .chanCount
  | 0x09 => .activeTimeout
  | 0x0A => .lastSuccessLo
  | 0x0B => .lastSuccessHi
  | 0x0C => .subsMask
  | 0x0D => .faultCause
  | 0x0E => .crcState
  | 0x0F => .reserved
  | n => .chanFreq (n - 0x10)

/-- A written register answers its value, an unwritten one InvalidState (R211, R333). -/
def writtenValue : Option Word → Except Status Word
  | some v => .ok v
  | none => .error .invalidState

/-- `csr[r]` as CFG_READ answers it (R211). -/
def State.readReg (s : State) : Reg → Except Status Word
  | .status => .ok s.statusWord
  | .addrLen => .ok (s.regs.addrLen.setWidth 32)
  | .crcLen => .ok (s.regs.crcLen.setWidth 32)
  | .maxTries => .ok (s.regs.maxTries.setWidth 32)
  | .rawMode => .ok ((BitVec.ofBool s.regs.rawMode).setWidth 32)
  | .lockedTimeout => writtenValue s.regs.lockedTimeout
  | .sweepTimeout => writtenValue s.regs.sweepTimeout
  | .pollInterval => .ok s.regs.pollInterval
  | .chanCount => .ok (s.regs.chanCount.setWidth 32)
  | .activeTimeout => .ok s.scan.activeTimeout
  | .lastSuccessLo => .ok s.lastSuccessLo
  | .lastSuccessHi => .ok s.lastSuccessHi
  | .subsMask => .ok s.subsMask
  | .faultCause => .ok s.faultCauseWord
  | .crcState => .ok s.crcStateWord
  | .reserved => .error .illegalCommand
  | .chanFreq i => writtenValue (s.regs.freq i)

/-- The RW registers of R41. -/
def Reg.writable : Reg → Bool
  | .addrLen | .crcLen | .maxTries | .rawMode | .lockedTimeout | .sweepTimeout | .pollInterval | .chanCount
  | .chanFreq _ => true
  | .status | .activeTimeout | .lastSuccessLo | .lastSuccessHi | .subsMask | .faultCause | .crcState
  | .reserved => false

/-- A write whose value must pass R213's check. -/
def guardWrite (legal : Bool) (e : Status) (c : Regs) : Except Status Regs :=
  if legal then .ok c else .error e

/-- `csr[r] <- v` after R213's check of `v`; registers that are not RW are IllegalCommand (R41, R212). -/
def Regs.write (c : Regs) (r : Reg) (v : Word) : Except Status Regs :=
  match r with
  | .addrLen => guardWrite (1 ≤ v.toNat ∧ v.toNat ≤ 15) .configError { c with addrLen := v.setWidth 4 }
  | .crcLen =>
    if v.extractLsb' 2 30 ≠ 0 then .error .configError
    else guardWrite (v.toNat = 1 ∨ v.toNat = 2) .unsupportedCrcLength { c with crcLen := v.setWidth 2 }
  | .maxTries => guardWrite (v.toNat ≤ 255) .configError { c with maxTries := v.setWidth 8 }
  | .rawMode => guardWrite (v.toNat ≤ 1) .configError { c with rawMode := v.getLsbD 0 }
  | .lockedTimeout => .ok { c with lockedTimeout := some v }
  | .sweepTimeout => .ok { c with sweepTimeout := some v }
  | .pollInterval => .ok { c with pollInterval := v }
  | .chanCount => guardWrite (v.toNat ≤ Config.maxChannels) .configError { c with chanCount := v.setWidth 8 }
  | .chanFreq i => .ok { c with chanFreq := c.chanFreq.setIfInBounds i (some v) }
  | .status | .activeTimeout | .lastSuccessLo | .lastSuccessHi | .subsMask | .faultCause | .crcState
  | .reserved => .error .illegalCommand

/-- The configuration START needs (R215): a table of 1 to CHAN_COUNT written entries, and both timeouts written. -/
def Regs.complete (c : Regs) : Bool :=
  1 ≤ c.chanCount.toNat && (List.range c.chanCount.toNat).all (fun i => (c.freq i).isSome)
    && c.lockedTimeout.isSome && c.sweepTimeout.isSome

end Sys2Proof.Machine
end

