-- ==== Sys2Proof/Machine/CodecCommands.lean ====
section
/-! DEFINITION. The commands of the frame codec (R171, R176, 41_frame_codec.md). -/

namespace Sys2Proof.Machine

/-- ENCODE (R171): operand lengths (R121), then A = 0 (R122), then R172's checks. -/
def execEncode (w : BitVec 2) (a : BitVec 4) (noack : Bool) (pid8 len8 : BitVec 8) (s : State) : Result :=
  s.withStrings a.toNat len8.toNat w.toNat fun addr payload crcb =>
    if a = 0 then s.raise .illegalCommand
    else s.answer ((encodeFrame addr payload crcb pid8.toNat len8.toNat w.toNat noack).map .bits)

/-- DECODE (R176): operand kind (R121), then A = 0 (R122). -/
def execDecode (w : BitVec 2) (a : BitVec 4) (raw : Bool) (tries : BitVec 8) (s : State) : Result :=
  s.withBits fun b =>
    if a = 0 then s.raise .illegalCommand
    else s.answer ((decodeFrame b a.toNat w.toNat raw tries.toNat).map .frame)

end Sys2Proof.Machine
end

