-- ==== Sys2Proof/Machine/ConfigCommands.lean ====
section
/-! DEFINITION. The configuration, start, stop and input commands (R211 to R218, 42_scan_pipeline.md). -/

namespace Sys2Proof.Machine

/-- CFG_READ (R211). -/
def execCfgRead (r : BitVec 8) (s : State) : Result :=
  s.withEmpty (s.answer ((s.readReg (Reg.ofNumber r)).map .word))

/-- CFG_WRITE (R212): the register's access, then the worker state, then the value (R213). -/
def execCfgWrite (r : BitVec 8) (s : State) : Result :=
  s.withWord fun v =>
    if !(Reg.ofNumber r).writable then s.raise .illegalCommand
    else if s.pipeState = .running then s.raise .invalidState
    else
      match s.regs.write (Reg.ofNumber r) v with
      | .ok c => { s with regs := c }.complete .nothing
      | .error e => s.raise e

/-- START's writes before its tuner call: the sample, the start values of the scan state (R216), `stop_req` cleared. -/
def State.startScan (s : State) : State :=
  { s.afterSample with scan := ⟨0, .sweeping, s.clockSample, s.regs.sweepValue⟩, stopReq := false }

/-- START (R214): the worker states, then the configuration (R215), then the start, one tuner call, and both workers
Running, or Faulted with SetFrequencyFailed and the writes kept (R291). -/
def execStart (s : State) : Result :=
  s.withEmpty <|
    if s.pipeState = .running ∨ s.pipeState = .faulted ∨ s.fanState = .running then s.raise .invalidState
    else if !s.regs.complete then s.raise .configError
    else
      let f := s.regs.freqValue 0
      let t := s.startScan.afterCall f
      if s.startScan.tunerReturnsOk f then { t with pipeState := .running, fanState := .running }.complete .nothing
      else t.enterFaulted.raise .setFrequencyFailed

/-- STOP (R217): only the flag. -/
def execStop (s : State) : Result := s.withEmpty ({ s with stopReq := true }.complete .nothing)

/-- PUSH_CAND (R218): in every worker state, held where `inq` is full (R88). -/
def execPushCand (s : State) : Result :=
  s.withBits fun b =>
    if hasRoom s.inq.length then { s with inq := s.inq ++ [b] }.complete .nothing else s.hold

end Sys2Proof.Machine
end

