-- ==== Sys2Proof/Machine/CrcCommands.lean ====
section
/-! DEFINITION. The commands of the CRC unit (R145 to R150, 40_crc.md). -/

namespace Sys2Proof.Machine

/-- CRC_SEQ with w = 0: UnsupportedCrcLength, the sequence not read (R147). -/
def execCrcSeqW0 (s : State) : Result := s.withBits fun _ => s.raise .unsupportedCrcLength

/-- CRC8 (R145). -/
def execCrc8 (s : State) : Result := s.withBits fun b => s.complete (.word ((crc8 b).setWidth 32))

/-- CRC16 (R146). -/
def execCrc16 (s : State) : Result := s.withBits fun b => s.complete (.word ((crc16 b).setWidth 32))

/-- CRC_SEQ with w = 3: UnsupportedCrcLength, the sequence not read (R147). -/
def execCrcSeqW3 (s : State) : Result := s.withBits fun _ => s.raise .unsupportedCrcLength

/-- A command that replaces the streaming register or fails. -/
def State.storeCrc (s : State) : Except Status CrcUnit → Result
  | .ok u => { s with crc := u }.complete .nothing
  | .error e => s.raise e

/-- CRC_INIT (R148). -/
def execCrcInit (w : BitVec 2) (s : State) : Result := s.withEmpty (s.storeCrc (CrcUnit.init w))

/-- CRC_SHIFT (R149). -/
def execCrcShift (b : Bool) (s : State) : Result := s.withEmpty (s.storeCrc (s.crc.shift b))

/-- CRC_READ (R150). -/
def execCrcRead (s : State) : Result := s.withEmpty (s.answer (s.crc.read.map .word))

end Sys2Proof.Machine
end

