-- ==== Sys2Proof/Machine/FanoutCommands.lean ====
section
/-! DEFINITION. The subscriber commands (R261, R262, 43_fanout.md). -/

namespace Sys2Proof.Machine

/-- The subscriber set with slot `k` in it (R34). -/
def withSlot (connected : BitVec 16) (k : Nat) : BitVec 16 := connected ||| (1#16 <<< k)

/-- CONNECT (R261), idempotent (R270). -/
def execConnect (k : BitVec 4) (s : State) : Result :=
  s.withEmpty <|
    if Config.params.maxSubs ≤ k.toNat then s.raise .configError
    else { s with connected := withSlot s.connected k.toNat }.complete .nothing

/-- The queue of the slot a 4-bit field names. -/
def State.slotQueue (s : State) (k : BitVec 4) : List Frame := s.subq[k.toNat]'k.isLt

/-- POP (R262): the slot number, the connection, the queue, in that order. -/
def execPop (k : BitVec 4) (s : State) : Result :=
  s.withEmpty <|
    if Config.params.maxSubs ≤ k.toNat then s.raise .configError
    else if !s.isConnected k.toNat then s.raise .invalidState
    else
      match s.slotQueue k with
      | [] => s.raise .queueEmpty
      | f :: rest => { s with subq := s.subq.set k.toNat rest k.isLt }.complete (.frame f)

end Sys2Proof.Machine
end

