-- ==== Sys2Proof/Machine/Dispatch.lean ====
section
/-! DEFINITION. The meaning of every command, one arm per constructor. -/

namespace Sys2Proof.Machine

/-- Step (4) of the command decode (R123, 30_encoding.md), with the operand and field checks of steps (2) and (3). -/
def exec (i : Instr) (s : State) : Host.Outcome State Fault Refusal :=
  match i with
  | .crcSeqW0 => Sys2Proof.Machine.execCrcSeqW0 s
  | .crc8 => Sys2Proof.Machine.execCrc8 s
  | .crc16 => Sys2Proof.Machine.execCrc16 s
  | .crcSeqW3 => Sys2Proof.Machine.execCrcSeqW3 s
  | .crcInit w => Sys2Proof.Machine.execCrcInit w s
  | .crcShift b => Sys2Proof.Machine.execCrcShift b s
  | .crcRead => Sys2Proof.Machine.execCrcRead s
  | .encode w a noack pid8 len8 => Sys2Proof.Machine.execEncode w a noack pid8 len8 s
  | .decode w a raw tries => Sys2Proof.Machine.execDecode w a raw tries s
  | .cfgRead r => Sys2Proof.Machine.execCfgRead r s
  | .cfgWrite r => Sys2Proof.Machine.execCfgWrite r s
  | .start => Sys2Proof.Machine.execStart s
  | .stop => Sys2Proof.Machine.execStop s
  | .pushCand => Sys2Proof.Machine.execPushCand s
  | .connect k => Sys2Proof.Machine.execConnect k s
  | .pop k => Sys2Proof.Machine.execPop k s

end Sys2Proof.Machine
end

