-- ==== Sys2Proof/Machine/Fanout.lean ====
section
/-! DEFINITION. The fan-out worker (R260, R263 to R269, 43_fanout.md). -/

namespace Sys2Proof.Machine

/-- The subscriber queues with `f` pushed to every connected slot (R263). -/
def State.deliver (s : State) (f : Frame) : Vector (List Frame) Config.slots :=
  s.subq.mapIdx fun k q => if s.isConnected k then q ++ [f] else q

/-- Every push of a delivery is enabled (R88). -/
def State.deliveryHasRoom (s : State) : Bool :=
  (List.range Config.slots).all fun k => !s.isConnected k || hasRoom (s.subq[k]?.getD []).length

/-- The stop check that begins both fan-out steps (R263, R264). -/
def State.fanStop (s : State) : State := { s with fanState := .stopped }

/-- FAN_DELIVER with frame `f` at the head of `frameq` and `rest` behind it: the pop and the snapshot of the subscriber
set are one step (R263, R83). A push to a full queue has no step (R88). -/
def State.fanDeliver (s : State) (f : Frame) (rest : List Frame) : State :=
  if s.stopReq then s.fanStop
  else if s.deliveryHasRoom then { s with frameq := rest, subq := s.deliver f }
  else s

/-- FAN_IDLE (R264). -/
def State.fanIdle (s : State) : State := if s.stopReq then s.fanStop else s

/-- The fan-out worker's turn: FAN_DELIVER where `frameq` holds a frame, FAN_IDLE where it is empty, and no step where the
worker is not Running (R263, R264; notes/assumptions/17.md). -/
def State.fanTurn (s : State) : State :=
  if s.fanState = .running then
    match s.frameq with
    | f :: rest => s.fanDeliver f rest
    | [] => s.fanIdle
  else s

end Sys2Proof.Machine
end

