-- ==== Sys2Proof/Machine/Fetch.lean ====
section
/-! DEFINITION. How the next step comes to the block: the script of pending events (notes/assumptions/1.md, 2.md), and
the zero operand a bare command word is presented with (notes/assumptions/13.md). -/

namespace Sys2Proof.Machine

/-- The step that is taken next: the first pending event, else a free one (R5). -/
def State.nextEvent (s : State) : Event := s.env.pending.head?.getD (Config.nextEvent s.env.draws)

/-- The event used up. -/
def State.afterEvent (s : State) : State :=
  { s with env := { s.env with pending := s.env.pending.tail, draws := s.env.draws + 1 } }

/-- The data operand of a command, presented beside its word (R117). -/
def State.present (s : State) (d : Operand) : State := { s with env := { s.env with operand := d } }

/-- The operand of the kind and length the command names (R117), with every bit 0. -/
def zeroOperand : Instr → Operand
  | .crcSeqW0 | .crc8 | .crc16 | .crcSeqW3 | .decode _ _ _ _ | .pushCand => .bits []
  | .encode w a _ _ len8 =>
    .strings (List.replicate a.toNat 0) (List.replicate len8.toNat 0) (List.replicate w.toNat 0)
  | .cfgWrite _ => .word 0
  | .crcInit _ | .crcShift _ | .crcRead | .cfgRead _ | .start | .stop | .connect _ | .pop _ => .empty

/-- The command event of a bare command word. -/
def bareCommand (w : Word) : Event :=
  .command w (match decode w with
    | .ok i => zeroOperand i
    | .error _ => .empty)

end Sys2Proof.Machine
end

