-- ==== Sys2Proof/Machine/Pipeline.lean ====
section
/-! DEFINITION. The decode pipeline worker and the channel-scan state machine (R219 to R236, 42_scan_pipeline.md). -/

namespace Sys2Proof.Machine

/-- The hop test: strictly more than the active timeout since the last success, unsigned at the timestamp width (R13,
R224). -/
def ScanState.expired (c : ScanState) (now : Timestamp) : Bool :=
  c.activeTimeout.setWidth Config.tsWidth < now - c.lastSuccess

/-- The hop (R224): the next channel, Sweeping, and the tuner call with the new channel's frequency (R225, R226). -/
def State.hop (s : State) (now : Timestamp) : State :=
  let i := nextChannel s.scan.channelIndex s.regs.chanCount
  { s with scan := ⟨i, .sweeping, now, s.regs.sweepValue⟩ }.setFrequency (s.regs.freqValue i.toNat)

/-- `TimeoutEval(now)` (R224). -/
def State.timeoutEval (s : State) (now : Timestamp) : State :=
  if s.scan.expired now then s.hop now else s

/-- The success transition (R222) after the frame is pushed to `frameq` (R220). -/
def State.decodeSuccess (s : State) (f : Frame) (now : Timestamp) : State :=
  { s with
    frameq := s.frameq ++ [f]
    scan := { s.scan with mode := .locked, lastSuccess := now, activeTimeout := s.regs.lockedValue } }

/-- The decode of a tick, with the registers as its parameters (R233). -/
def Regs.decodeCand (c : Regs) (b : Bits) : Except Status Frame :=
  decodeFrame b c.addrLen.toNat c.crcLen.toNat c.rawMode c.maxTries.toNat

/-- The stop check that begins every pipeline step (R219). -/
def State.pipeStop (s : State) : State := { s with pipeState := .stopped }

/-- PIPE_TICK_RX with candidate `b` at the head of `inq` and `rest` behind it, in R227's order. A push to a full `frameq`
has no step (R88). -/
def State.pipeTickRx (s : State) (b : Bits) (rest : List Bits) : State :=
  if s.stopReq then s.pipeStop
  else
    let now := s.clockSample
    let t := { s.afterSample with inq := rest }
    match s.regs.decodeCand b with
    | .ok f => if hasRoom s.frameq.length then (t.decodeSuccess f now).timeoutEval now else s
    | .error _ => t.timeoutEval now

/-- PIPE_TICK_IDLE (R221). -/
def State.pipeTickIdle (s : State) : State :=
  if s.stopReq then s.pipeStop else s.afterSample.timeoutEval s.clockSample

/-- The pipeline worker's turn: PIPE_TICK_RX where `inq` holds a candidate, PIPE_TICK_IDLE where it is empty, and no step
where the worker is not Running (R220, R221; notes/assumptions/17.md). -/
def State.pipeTurn (s : State) : State :=
  if s.pipeState = .running then
    match s.inq with
    | b :: rest => s.pipeTickRx b rest
    | [] => s.pipeTickIdle
  else s

end Sys2Proof.Machine
end

