-- ==== Sys2Proof/Machine/Step.lean ====
section
/-! DEFINITION. One atomic step of the block (R5, 00_scope.md): one command, one worker step, or RESET. -/

namespace Sys2Proof.Machine

/-- A command word as a transaction: a word that is no command answers IllegalCommand and changes nothing (R120, R121). -/
def State.command (s : State) (w : Word) : Host.Outcome State Fault Refusal :=
  match decode w with
  | .ok i => exec i s
  | .error _ => s.raise .illegalCommand

/-- The step of the next event. -/
def step (s : State) : Host.Outcome State Fault Refusal :=
  match s.nextEvent with
  | .command w d => (s.afterEvent.present d).command w
  | .pipeTurn => .next s.afterEvent.pipeTurn
  | .fanTurn => .next s.afterEvent.fanTurn
  | .reset => .next s.afterEvent.applyReset

/-- `s` with the command word `w` as the next event, beside the zero operand of its kind (notes/assumptions/13.md). -/
def State.withFetchWord (s : State) (nbits w : Nat) : State :=
  { s with env := { s.env with pending := bareCommand (BitVec.ofNat 32 (w % 2 ^ nbits)) :: s.env.pending } }

end Sys2Proof.Machine
end

