-- ==== Sys2Proof/Machine/Pseudo.lean ====
section
/-! DEFINITION. The pseudo-instructions of R128 (30_encoding.md): compositions of commands by the host. -/

namespace Sys2Proof.Machine

/-- A command with its data operand, as one transaction. -/
def issue (i : Instr) (d : Operand) (s : State) : Result := exec i (s.present d)

/-- One outcome after another: the first that is no next state ends the sequence. -/
def andThen (r : Result) (k : State → Result) : Result :=
  match r with
  | .next s => k s
  | .fault e => .fault e
  | .refused e => .refused e

/-- Commands issued in order with no other agent's step in between. -/
def runCommands : List (Instr × Operand) → State → Result
  | [], s => .next s
  | c :: rest, s => andThen (issue c.1 c.2 s) (runCommands rest)

/-- CRC_STREAM `w ; s` (R128). -/
def crcStream (w : BitVec 2) (s : Bits) : List (Instr × Operand) :=
  (.crcInit w, .empty) :: (s.map fun b => (.crcShift b, .empty)) ++ [(.crcRead, .empty)]

/-- `prependPreamble(x)` (R194, 41_frame_codec.md). -/
def prependPreamble (x : Bits) : Bits := Config.params.preamble ++ x

/-- PUSH_FRAME `x` (R128). -/
def pushFrame (x : Bits) : Instr × Operand := (.pushCand, .bits (prependPreamble x))

/-- `be_w(v)` of the word a command answered, what ENCODE_AUTO hands to ENCODE; none where the command failed. -/
def State.answeredCrc (s : State) (w : BitVec 2) : Option (List Byte) :=
  match s.env.response with
  | some ⟨.ok, .word v⟩ => some (beBytes w.toNat v.toNat)
  | _ => none

/-- ENCODE_AUTO `a=A, c=w, pid=p, noack=n ; addr, payload` (R128, R193): the CRC command over the header bits, then ENCODE
with the CRC it answered. A host whose CRC command fails has no CRC to give and issues no ENCODE
(notes/assumptions/22.md). -/
def encodeAuto (w : BitVec 2) (a : BitVec 4) (pid8 : BitVec 8) (noack : Bool) (addr payload : List Byte) (s : State) :
    Result :=
  andThen (issue (crcSeq w) (.bits (headerBits addr payload payload.length pid8.toNat noack)) s) fun t =>
    match t.answeredCrc w with
    | some crcb => issue (.encode w a noack pid8 (BitVec.ofNat 8 payload.length)) (.strings addr payload crcb) t
    | none => .next t

end Sys2Proof.Machine
end

