-- ==== Sys2Proof/Safety.lean ====
section
/-! DEFINITION. What a sound state of the block is: the invariants the rules state or that follow from them, in the terms
the statements use. -/

namespace Sys2Proof.Machine

/-- The streaming register holds 0 while unconfigured, and only its low byte as a CRC8 (R22, 10_state.md). -/
abbrev CrcUnit.Ok (u : CrcUnit) : Prop :=
  (u.width = .unconfigured → u.reg = 0) ∧ (u.width = .byte → u.reg.toNat < 256)

/-- The configuration registers hold legal values (R43, R44, R50). -/
abbrev Regs.Ok (c : Regs) : Prop :=
  c.addrLen ≠ 0 ∧ (c.crcLen = 1 ∨ c.crcLen = 2) ∧ c.chanCount.toNat ≤ Config.maxChannels

/-- The invariant of a frame (R36), with the length ranges of ADDR_LEN and CRC_LEN. -/
abbrev Frame.Ok (f : Frame) : Prop :=
  f.payload.length = f.payloadLength ∧ f.payloadLength ≤ 32 ∧ 1 ≤ f.address.length ∧ f.address.length ≤ 15 ∧
    (f.crc.length = 1 ∨ f.crc.length = 2)

/-- A Running pipeline has a complete configuration and a channel inside the table (R24, R86, R215). -/
abbrev State.RunOk (s : State) : Prop :=
  s.pipeState = .running → s.regs.complete = true ∧ s.scan.channelIndex.toNat < s.regs.chanCount.toNat

/-- `fault_cause` is 5 exactly while Faulted, else 0 (R29, R226). -/
abbrev State.FaultOk (s : State) : Prop :=
  s.faultCause = if s.pipeState = .faulted then .setFrequencyFailed else .ok

/-- Every frame in a queue is sound (R36). -/
abbrev State.FramesOk (s : State) : Prop :=
  (∀ f ∈ s.frameq, f.Ok) ∧ ∀ k : Fin Config.slots, ∀ f ∈ s.subq[k], f.Ok

/-- The queue of a slot that is not connected is empty (R261, R263). -/
abbrev State.SlotsOk (s : State) : Prop :=
  ∀ k : Fin Config.slots, s.isConnected k = false → s.subq[k] = []

/-- No success lies after the last sample (R24, R30). -/
abbrev State.TimeOk (s : State) : Prop := s.scan.lastSuccess ≤ s.lastNow

/-- Before the first START after a RESET nothing has run (R27, R331, 70_reset_and_hazards.md). -/
abbrev State.IdleOk (s : State) : Prop :=
  s.pipeState = .idle →
    s.fanState = .idle ∧ s.scan = State.reset.scan ∧ s.lastNow = 0 ∧ s.frameq = [] ∧
      ∀ k : Fin Config.slots, s.subq[k] = []

/-- The block's invariant: it holds after RESET and every step keeps it. -/
abbrev State.Inv (s : State) : Prop :=
  s.crc.Ok ∧ s.regs.Ok ∧ s.RunOk ∧ s.FaultOk ∧ s.FramesOk ∧ s.SlotsOk ∧ s.TimeOk ∧ s.IdleOk

/-- The pipeline takes a tick that is not ended by the stop check (R219, R220, R221). -/
abbrev State.Ticks (s : State) : Prop := s.pipeState = .running ∧ s.stopReq = false

/-- The next step is a START that passes its checks and so calls the tuner (R214, R215, R225). -/
abbrev State.Starting (s : State) : Prop :=
  (∃ w, s.nextEvent = .command w .empty ∧ decode w = .ok .start) ∧
    s.pipeState ≠ .running ∧ s.pipeState ≠ .faulted ∧ s.fanState ≠ .running ∧ s.regs.complete = true

/-- The next step is a pipeline turn that hops: a tick with no success, strictly past the timeout (R224, R225). -/
abbrev State.Hopping (s : State) : Prop :=
  s.nextEvent = .pipeTurn ∧ s.Ticks ∧
    (∀ b rest, s.inq = b :: rest → ∃ e, s.regs.decodeCand b = .error e) ∧
    s.scan.activeTimeout.toNat < (s.afterEvent.clockSample - s.scan.lastSuccess).toNat

/-- The data operand is of the kind and length the command names (R117). -/
def operandFits (i : Instr) (d : Operand) : Bool :=
  match i, d with
  | .crcSeqW0, .bits _ | .crc8, .bits _ | .crc16, .bits _ | .crcSeqW3, .bits _ => true
  | .decode _ _ _ _, .bits _ | .pushCand, .bits _ => true
  | .encode w a _ _ len8, .strings addr payload crcb =>
    addr.length == a.toNat && payload.length == len8.toNat && crcb.length == w.toNat
  | .cfgWrite _, .word _ => true
  | .crcInit _, .empty | .crcShift _, .empty | .crcRead, .empty | .cfgRead _, .empty | .start, .empty => true
  | .stop, .empty | .connect _, .empty | .pop _, .empty => true
  | _, _ => false

/-- The commands that only answer: they write no state (R38, R77, R170, R192). -/
def answersOnly : Instr → Bool
  | .crcSeqW0 | .crc8 | .crc16 | .crcSeqW3 | .crcRead | .encode _ _ _ _ _ | .decode _ _ _ _ | .cfgRead _ => true
  | .crcInit _ | .crcShift _ | .cfgWrite _ | .start | .stop | .pushCand | .connect _ | .pop _ => false

end Sys2Proof.Machine
end

