-- ==== Sys2Proof/Certificates/Slice0/Obligations.lean ====
section
/-! DEFINITION. The statements for the provers, from the numbered rules of spec/. -/

open Sys2Proof Sys2Proof.Machine

/-! ## The command word (30_encoding.md) -/

/-- R109 to R116, R125: the decoder reads back every field of every command word the encoder writes. -/
def Obligations.DecodeInvertsEncode : Prop :=
  ∀ i : Instr, decode (encode i) = .ok i

/-- R108 to R116, R121: a word the decoder accepts is the encoder's word of the command it gives, so no bit is
ignored. -/
def Obligations.EncodeInvertsDecode : Prop :=
  ∀ (w : Word) (i : Instr), decode w = .ok i → encode i = w

/-- R119 to R121: the words that are no command are exactly those with a reserved opcode or a 1 in a bit the format of
their opcode marks 0. -/
def Obligations.RejectedWordsExactly : Prop :=
  ∀ w : Word,
    (decode w = .error .reservedOpcode ↔ field w 28 4 = 0x0 ∨ field w 28 4 = 0xE ∨ field w 28 4 = 0xF) ∧
    (decode w = .error .reservedBits ↔
      ((field w 28 4 = 0x1 ∨ field w 28 4 = 0x2) ∧ field w 0 26 ≠ 0) ∨
      (field w 28 4 = 0x3 ∧ field w 1 27 ≠ 0) ∨
      ((field w 28 4 = 0x4 ∨ field w 28 4 = 0x9 ∨ field w 28 4 = 0xA ∨ field w 28 4 = 0xB) ∧ field w 0 28 ≠ 0) ∨
      (field w 28 4 = 0x5 ∧ field w 0 5 ≠ 0) ∨
      (field w 28 4 = 0x6 ∧ field w 0 13 ≠ 0) ∨
      ((field w 28 4 = 0x7 ∨ field w 28 4 = 0x8) ∧ field w 0 20 ≠ 0) ∨
      ((field w 28 4 = 0xC ∨ field w 28 4 = 0xD) ∧ field w 0 24 ≠ 0))

/-- R120: a command with a reserved opcode changes nothing and returns IllegalCommand. -/
def Obligations.ReservedOpcodesAnswerIllegal : Prop :=
  ∀ (w : Word) (s : State), field w 28 4 = 0x0 ∨ field w 28 4 = 0xE ∨ field w 28 4 = 0xF →
    s.command w = .next (s.respond .illegalCommand .nothing)

/-- R127, R129: worked encodings, one word or more of every format. -/
def Obligations.WorkedEncodingsDecode : Prop :=
  decode 0x14000000 = .ok .crc8 ∧ decode 0x28000000 = .ok (.crcInit 2) ∧ decode 0x30000001 = .ok (.crcShift true) ∧
  decode 0x40000000 = .ok .crcRead ∧ decode 0x59404140 = .ok (.encode 2 5 false 2 10) ∧
  decode 0x69610000 = .ok (.decode 2 5 true 8) ∧ decode 0x80600000 = .ok (.cfgWrite 6) ∧
  decode 0x90000000 = .ok .start ∧ decode 0xB0000000 = .ok .pushCand ∧ decode 0xC3000000 = .ok (.connect 3)

/-- R122: A = 0 in ENCODE and DECODE answers IllegalCommand and changes nothing, whatever the operand. -/
def Obligations.ZeroAddressLengthAnswersIllegal : Prop :=
  ∀ (s : State) (w : BitVec 2) (b : Bool) (p l : BitVec 8),
    exec (.encode w 0 b p l) s = .next (s.respond .illegalCommand .nothing) ∧
    exec (.decode w 0 b p) s = .next (s.respond .illegalCommand .nothing)

/-- R5, R12, R123, R124: the step is the step of the next event, which is the first pending one or, where none is
pending, a free one. A command whose word decodes runs its meaning at the state with the event used up and the operand
presented; a word that does not decode answers IllegalCommand and leaves the block unchanged; a worker's turn runs
that worker's step. The list of pending events, the free event, the operand field and the counter are the model's own
(notes/assumptions/1.md, 2.md, 5.md, 11.md). -/
def Obligations.StepRunsDecodedCommand : Prop :=
  ∀ (s : State) (e : Event) (rest : List Event),
    s.env.pending = e :: rest ∨ (s.env.pending = [] ∧ rest = [] ∧ Config.nextEvent s.env.draws = e) →
    (∀ (w : Word) (d : Operand) (i : Instr), e = .command w d → decode w = .ok i →
      step s = exec i
        { s with env := { s.env with pending := rest, operand := d, draws := s.env.draws + 1 } }) ∧
    (∀ (w : Word) (d : Operand) (x : Reject), e = .command w d → decode w = .error x →
      ∃ t, step s = .next t ∧ t.env.response = some ⟨.illegalCommand, .nothing⟩ ∧ t = { s with env := t.env } ∧
        t.env.pending = rest ∧ t.env.tunerLog = s.env.tunerLog) ∧
    (e = .pipeTurn →
      step s = .next ({ s with env := { s.env with pending := rest, draws := s.env.draws + 1 } } : State).pipeTurn) ∧
    (e = .fanTurn →
      step s = .next ({ s with env := { s.env with pending := rest, draws := s.env.draws + 1 } } : State).fanTurn)

/-- R117, R121: a command whose data operand is of the wrong kind or length answers IllegalCommand and changes
nothing, before any other check. -/
def Obligations.WrongOperandAnswersIllegal : Prop :=
  ∀ (i : Instr) (s : State), operandFits i s.env.operand = false →
    exec i s = .next (s.respond .illegalCommand .nothing)

/-- R299, R291: the block has no trap; every step of every state answers a next state. -/
def Obligations.EveryStepAnswersNext : Prop :=
  ∀ s : State, ∃ t, step s = .next t

/-! ## The CRC unit (40_crc.md) -/

/-- R142: one LFSR step, and the same step as a circuit: the feedback goes into bit 0 and into the taps 1, 2 (CRC8)
and 5, 12 (CRC16), and every other bit shifts. -/
def Obligations.CrcStepIsGaloisLfsr : Prop :=
  (∀ (r : BitVec 8) (b : Bool),
    crcStep crc8Poly r b = (if r.msb ≠ b then (r <<< 1) ^^^ 0x07 else r <<< 1) ∧
    ∀ i, i < 8 → (crcStep crc8Poly r b).getLsbD i =
      if i = 0 then (r.getLsbD 7 ^^ b)
      else if i = 1 ∨ i = 2 then (r.getLsbD (i - 1) ^^ (r.getLsbD 7 ^^ b)) else r.getLsbD (i - 1)) ∧
  (∀ (r : BitVec 16) (b : Bool),
    crcStep crc16Poly r b = (if r.msb ≠ b then (r <<< 1) ^^^ 0x1021 else r <<< 1) ∧
    ∀ i, i < 16 → (crcStep crc16Poly r b).getLsbD i =
      if i = 0 then (r.getLsbD 15 ^^ b)
      else if i = 5 ∨ i = 12 then (r.getLsbD (i - 1) ^^ (r.getLsbD 15 ^^ b)) else r.getLsbD (i - 1))

/-- R145: CRC8, its word, its value with no other state change, its only failures, its corner cases and its example;
the value is the register of R143 after one LFSR step for each bit. -/
def Obligations.Crc8Command : Prop :=
  decode 0x14000000 = .ok .crc8 ∧
  (∀ (s : State) (b : Bits), s.env.operand = .bits b →
    exec .crc8 s = .next (s.respond .ok (.word ((crc8 b).setWidth 32)))) ∧
  (∀ s : State, (∀ b, s.env.operand ≠ .bits b) → exec .crc8 s = .next (s.respond .illegalCommand .nothing)) ∧
  (∀ (w : Word) (s : State), field w 28 4 = 1 → field w 0 26 ≠ 0 →
    s.command w = .next (s.respond .illegalCommand .nothing)) ∧
  (∀ (s : Bits) (b : Bool), crc8 (s ++ [b]) = crcStep 0x07 (crc8 s) b) ∧
  crc8 [] = 0xFF ∧ crc8 (bitsOf 8 0xFF) = 0x00 ∧ crc8 [true] = 0xFE

/-- R146: CRC16, its word, its value with no other state change, its only failures, its corner cases and the example
of the 129 covered bits of the fixture; the value is the register of R143 after one LFSR step for each bit. -/
def Obligations.Crc16Command : Prop :=
  decode 0x18000000 = .ok .crc16 ∧
  (∀ (s : State) (b : Bits), s.env.operand = .bits b →
    exec .crc16 s = .next (s.respond .ok (.word ((crc16 b).setWidth 32)))) ∧
  (∀ s : State, (∀ b, s.env.operand ≠ .bits b) → exec .crc16 s = .next (s.respond .illegalCommand .nothing)) ∧
  (∀ (w : Word) (s : State), field w 28 4 = 1 → field w 0 26 ≠ 0 →
    s.command w = .next (s.respond .illegalCommand .nothing)) ∧
  (∀ (s : Bits) (b : Bool), crc16 (s ++ [b]) = crcStep 0x1021 (crc16 s) b) ∧
  crc16 [] = 0xFFFF ∧ crc16 (bytesToBits [0x31, 0x32, 0x33, 0x34, 0x35, 0x36, 0x37, 0x38, 0x39]) = 0x29B1 ∧
  crc16 (headerBits [0x4F, 0xEC, 0x90, 0x28, 0x0D] [0x00, 0xC2, 0x00, 0x00, 0xFF, 0xCF, 0xFF, 0x00, 0x00, 0x71] 10 2
    false) = 0x85AC

/-- R147: CRC_SEQ with w = 0 or w = 3 answers UnsupportedCrcLength for every sequence, and changes nothing; reserved
bits come first. -/
def Obligations.CrcSeqUnsupportedLength : Prop :=
  decode 0x10000000 = .ok .crcSeqW0 ∧ decode 0x1C000000 = .ok .crcSeqW3 ∧
  (∀ (s : State) (b : Bits), s.env.operand = .bits b →
    exec .crcSeqW0 s = .next (s.respond .unsupportedCrcLength .nothing) ∧
    exec .crcSeqW3 s = .next (s.respond .unsupportedCrcLength .nothing)) ∧
  (∀ (w : Word) (s : State), field w 28 4 = 1 → field w 0 26 ≠ 0 →
    s.command w = .next (s.respond .illegalCommand .nothing))

/-- R148: CRC_INIT, its words, the register it leaves, its failures, that two in a row leave what one leaves, and its
example. -/
def Obligations.CrcInitCommand : Prop :=
  decode 0x24000000 = .ok (.crcInit 1) ∧ decode 0x28000000 = .ok (.crcInit 2) ∧
  (∀ s : State, s.env.operand = .empty →
    exec (.crcInit 1) s = .next ({ s with crc := ⟨0x00FF, .byte⟩ }.respond .ok .nothing) ∧
    exec (.crcInit 2) s = .next ({ s with crc := ⟨0xFFFF, .half⟩ }.respond .ok .nothing) ∧
    exec (.crcInit 0) s = .next (s.respond .unsupportedCrcLength .nothing) ∧
    exec (.crcInit 3) s = .next (s.respond .unsupportedCrcLength .nothing)) ∧
  (∀ (w : Word) (s : State), field w 28 4 = 2 → field w 0 26 ≠ 0 →
    s.command w = .next (s.respond .illegalCommand .nothing)) ∧
  (∀ (w : BitVec 2) (s t : State), exec (.crcInit w) s = .next t → exec (.crcInit w) t = .next t) ∧
  (∀ s t : State, issue (.crcInit 2) .empty s = .next t → t.crcStateWord = 0x0002FFFF)

/-- R149: CRC_SHIFT, its words, the register after it, its failures, that a CRC8 register keeps its high byte 0, and
its example. -/
def Obligations.CrcShiftCommand : Prop :=
  decode 0x30000000 = .ok (.crcShift false) ∧ decode 0x30000001 = .ok (.crcShift true) ∧
  (∀ (s : State) (b : Bool), s.env.operand = .empty →
    (s.crc.width = .unconfigured → exec (.crcShift b) s = .next (s.respond .invalidState .nothing)) ∧
    (s.crc.width = .byte → ∃ t : State, exec (.crcShift b) s = .next (t.respond .ok .nothing) ∧
      t = { s with crc := ⟨t.crc.reg, .byte⟩ } ∧ t.crc.reg.toNat < 256 ∧
      t.crc.reg.setWidth 8 = crcStep crc8Poly (s.crc.reg.setWidth 8) b) ∧
    (s.crc.width = .half →
      exec (.crcShift b) s = .next ({ s with crc := ⟨crcStep crc16Poly s.crc.reg b, .half⟩ }.respond .ok .nothing))) ∧
  (∀ (w : Word) (s : State), field w 28 4 = 3 → field w 1 27 ≠ 0 →
    s.command w = .next (s.respond .illegalCommand .nothing)) ∧
  (∀ s t : State, runCommands [(.crcInit 1, .empty), (.crcShift false, .empty)] s = .next t → t.crc.reg = 0x00F9)

/-- R150: CRC_READ, its word, its value, its failures and its example; the register is not changed. -/
def Obligations.CrcReadCommand : Prop :=
  decode 0x40000000 = .ok .crcRead ∧
  (∀ s : State, s.env.operand = .empty →
    (s.crc.width = .unconfigured → exec .crcRead s = .next (s.respond .invalidState .nothing)) ∧
    (s.crc.width = .byte → exec .crcRead s = .next (s.respond .ok (.word ((s.crc.reg.setWidth 8).setWidth 32)))) ∧
    (s.crc.width = .half → exec .crcRead s = .next (s.respond .ok (.word (s.crc.reg.setWidth 32))))) ∧
  (∀ (w : Word) (s : State), field w 28 4 = 4 → field w 0 28 ≠ 0 →
    s.command w = .next (s.respond .illegalCommand .nothing)) ∧
  (∀ s : State, ∃ t, runCommands [(.crcInit 2, .empty), (.crcShift true, .empty), (.crcRead, .empty)] s = .next t ∧
    t.env.response = some ⟨.ok, .word 0x0000FFFE⟩)

/-- R151: CRC_STREAM returns the value CRC8 or CRC16 returns for the same sequence, in every state. -/
def Obligations.StreamingEqualsSequence : Prop :=
  ∀ (s : State) (b : Bits),
    (∃ t, runCommands (crcStream 1 b) s = .next t ∧
      t.env.response = some ⟨.ok, .word ((crc8 b).setWidth 32)⟩) ∧
    (∃ t, runCommands (crcStream 2 b) s = .next t ∧
      t.env.response = some ⟨.ok, .word ((crc16 b).setWidth 32)⟩)

/-- R152: the CRC is affine over GF(2): the CRCs of two sequences of equal length differ by the CRC of their
difference computed with initial register 0. So any single-bit change inside the covered bits changes the CRC. -/
def Obligations.CrcDetectsSingleBitChanges : Prop :=
  (∀ s t : Bits, s.length = t.length →
    crc8 s ^^^ crc8 t = (List.zipWith (fun a b => a ^^ b) s t).foldl (crcStep crc8Poly) 0 ∧
    crc16 s ^^^ crc16 t = (List.zipWith (fun a b => a ^^ b) s t).foldl (crcStep crc16Poly) 0) ∧
  ∀ (s : Bits) (i : Nat) (h : i < s.length),
    crc8 (s.set i (!s[i])) ≠ crc8 s ∧ crc16 (s.set i (!s[i])) ≠ crc16 s

/-! ## The frame codec (41_frame_codec.md) -/

/-- R171, R173, R174: ENCODE of operands in range answers the frame bits with the caller's CRC bytes, unchecked, and
writes no state. -/
def Obligations.EncodeAnswersFrameBits : Prop :=
  ∀ (s : State) (w : BitVec 2) (a : BitVec 4) (noack : Bool) (pid8 len8 : BitVec 8) (addr payload crcb : List Byte),
    s.env.operand = .strings addr payload crcb → addr.length = a.toNat → payload.length = len8.toNat →
    crcb.length = w.toNat → a ≠ 0 → len8.toNat ≤ 32 → pid8.toNat ≤ 3 → w = 1 ∨ w = 2 →
      exec (.encode w a noack pid8 len8) s = .next (s.respond .ok (.bits
        (bytesToBits addr ++ bitsOf 6 len8.toNat ++ bitsOf 2 pid8.toNat ++ [noack] ++ bytesToBits payload
          ++ bytesToBits crcb)))

/-- R172: the encode checks in the order InvalidPayload, InvalidPacketId, UnsupportedCrcLength; the first that applies
is reported and no output is produced. -/
def Obligations.EncodeErrorOrder : Prop :=
  ∀ (s : State) (w : BitVec 2) (a : BitVec 4) (noack : Bool) (pid8 len8 : BitVec 8) (addr payload crcb : List Byte),
    s.env.operand = .strings addr payload crcb → addr.length = a.toNat → payload.length = len8.toNat →
    crcb.length = w.toNat → a ≠ 0 →
      (32 < len8.toNat →
        exec (.encode w a noack pid8 len8) s = .next (s.respond .invalidPayload .nothing)) ∧
      (len8.toNat ≤ 32 → 3 < pid8.toNat →
        exec (.encode w a noack pid8 len8) s = .next (s.respond .invalidPacketId .nothing)) ∧
      (len8.toNat ≤ 32 → pid8.toNat ≤ 3 → w = 0 ∨ w = 3 →
        exec (.encode w a noack pid8 len8) s = .next (s.respond .unsupportedCrcLength .nothing))

/-- R101: the frame bit format: the total length, and each field at its offset from the first address bit. -/
def Obligations.FrameLayout : Prop :=
  ∀ (addr payload crcb : List Byte) (pid8 len8 w : Nat) (noack : Bool) (out : Bits),
    payload.length = len8 → crcb.length = w → encodeFrame addr payload crcb pid8 len8 w noack = .ok out →
      out.length = 8 * addr.length + 9 + 8 * len8 + 8 * w ∧
      slice out 0 (8 * addr.length) = bytesToBits addr ∧
      slice out (8 * addr.length) 6 = bitsOf 6 len8 ∧
      slice out (8 * addr.length + 6) 2 = bitsOf 2 pid8 ∧
      bitAt out (8 * addr.length + 8) = noack ∧
      slice out (8 * addr.length + 9) (8 * len8) = bytesToBits payload ∧
      slice out (8 * addr.length + 9 + 8 * len8) (8 * w) = bytesToBits crcb

/-- R177, R178, R179: the occurrences of raw mode are every index at which the preamble stands, ascending, overlaps
included; the candidates of raw mode are the first T of them, whatever A and C are, and non-raw mode has the single
candidate 0, whatever T is. -/
def Obligations.PreambleSearch : Prop :=
  (∀ (s : Bits) (i : Nat), i ∈ preambleOffsets s ↔
    i + 8 ≤ s.length ∧ slice s i 8 = [false, true, false, true, false, true, false, true]) ∧
  (∀ s : Bits, (preambleOffsets s).Pairwise (· < ·)) ∧
  preambleOffsets [false, true, false, true, false, true, false, true, false, true] = [0, 2] ∧
  (∀ (s : Bits) (t : Nat), candidates s true t = (preambleOffsets s).take t) ∧
  (∀ (s : Bits) (t i : Nat), i ∈ candidates s true t ↔
    i ∈ preambleOffsets s ∧ ((preambleOffsets s).filter (· < i)).length < t) ∧
  (∀ (s : Bits) (t : Nat), candidates s false t = [0])

/-- R180, R189: the first candidate whose CRC matches is returned and every one before it was skipped or mismatched;
with NoValidFrame every candidate was. -/
def Obligations.FirstMatchWins : Prop :=
  ∀ (s : Bits) (a c : Nat) (raw : Bool) (t : Nat),
    (∀ f, decodeFrame s a c raw t = .ok f ↔
      ∃ before off after, candidates s raw t = before ++ off :: after ∧
        tryCandidate false s a c off = .ok (some f) ∧ ∀ o ∈ before, tryCandidate false s a c o = .ok none) ∧
    (decodeFrame s a c raw t = .error .noValidFrame ↔
      ∀ o ∈ candidates s raw t, tryCandidate false s a c o = .ok none)

/-- R181 to R188: a candidate at offset `off` gives a frame exactly when its fields fit, its length field is at most
32, C is 1 or 2 and the CRC of its body equals its CRC field; and the frame is that of the fields at their offsets
from the field base, with the CRC bytes as extracted. -/
def Obligations.CandidateAcceptance : Prop :=
  ∀ (s : Bits) (a c off : Nat) (f : Frame),
    tryCandidate false s a c off = .ok (some f) ↔
      (off + 8 + 8 * a + 6 ≤ s.length ∧
       uint (slice s (off + 8 + 8 * a) 6) ≤ 32 ∧
       off + 8 + 8 * a + 9 + 8 * uint (slice s (off + 8 + 8 * a) 6) + 8 * c ≤ s.length ∧
       ((c = 1 ∧ (crc8 (slice s (off + 8) (8 * a + 9 + 8 * uint (slice s (off + 8 + 8 * a) 6)))).toNat =
           uint (slice s (off + 8 + 8 * a + 9 + 8 * uint (slice s (off + 8 + 8 * a) 6)) 8)) ∨
        (c = 2 ∧ (crc16 (slice s (off + 8) (8 * a + 9 + 8 * uint (slice s (off + 8 + 8 * a) 6)))).toNat =
           uint (slice s (off + 8 + 8 * a + 9 + 8 * uint (slice s (off + 8 + 8 * a) 6)) 16)))) ∧
      f.address = bitsToBytes (slice s (off + 8) (8 * a)) ∧
      f.payloadLength = uint (slice s (off + 8 + 8 * a) 6) ∧
      f.payload = bitsToBytes (slice s (off + 8 + 8 * a + 9) (8 * uint (slice s (off + 8 + 8 * a) 6))) ∧
      f.pid.toNat = uint (slice s (off + 8 + 8 * a + 6) 2) ∧
      some f.noack = s[off + 8 + 8 * a + 8]? ∧
      f.crc = bitsToBytes (slice s (off + 8 + 8 * a + 9 + 8 * uint (slice s (off + 8 + 8 * a) 6)) (8 * c))

/-- R185: with C outside 1 and 2 the first candidate that passes the length checks ends the decode with
UnsupportedCrcLength, and with none the result is NoValidFrame. -/
def Obligations.UnsupportedLengthIsLazy : Prop :=
  ∀ (s : Bits) (a c : Nat) (raw : Bool) (t : Nat), c ≠ 1 → c ≠ 2 →
    decodeFrame s a c raw t =
      if ∃ off ∈ candidates s raw t,
          off + 8 + 8 * a + 6 ≤ s.length ∧ uint (slice s (off + 8 + 8 * a) 6) ≤ 32 ∧
          off + 8 + 8 * a + 9 + 8 * uint (slice s (off + 8 + 8 * a) 6) + 8 * c ≤ s.length
      then .error .unsupportedCrcLength else .error .noValidFrame

/-- R36, R188: every decoded frame has the invariant's lengths. -/
def Obligations.DecodedFrameLengths : Prop :=
  ∀ (s : Bits) (a c : Nat) (raw : Bool) (t : Nat) (f : Frame), decodeFrame s a c raw t = .ok f →
    f.address.length = a ∧ f.payload.length = f.payloadLength ∧ f.payloadLength ≤ 32 ∧ f.crc.length = c ∧
      (c = 1 ∨ c = 2)

/-- R176: DECODE answers the frame `Decode` returns or the status it raises, and writes no state (R192). -/
def Obligations.DecodeAnswersFrame : Prop :=
  ∀ (s : State) (w : BitVec 2) (a : BitVec 4) (raw : Bool) (tries : BitVec 8) (b : Bits),
    s.env.operand = .bits b → a ≠ 0 →
      (∀ f, decodeFrame b a.toNat w.toNat raw tries.toNat = .ok f →
        exec (.decode w a raw tries) s = .next (s.respond .ok (.frame f))) ∧
      (∀ e, decodeFrame b a.toNat w.toNat raw tries.toNat = .error e →
        exec (.decode w a raw tries) s = .next (s.respond e .nothing))

/-- R191: in non-raw mode the 8 bits before the address and the bits after the CRC field are never read. -/
def Obligations.OutsideBitsAreNotRead : Prop :=
  ∀ (pre pre' body tail : Bits) (a c t t' : Nat) (f : Frame), pre.length = 8 → pre'.length = 8 →
    decodeFrame (pre ++ body) a c false t = .ok f →
      decodeFrame (pre' ++ body ++ tail) a c false t' = .ok f

/-- R193, R195: the round trip: ENCODE_AUTO, its two commands issued in any state, answers the header bits followed by
the bits of their CRC, and these bits, after the preamble, decode to the fields. -/
def Obligations.FrameRoundTrip : Prop :=
  ∀ (s : State) (w : BitVec 2) (a : BitVec 4) (pid8 : BitVec 8) (noack : Bool) (addr payload : List Byte),
    w = 1 ∨ w = 2 → a ≠ 0 → addr.length = a.toNat → payload.length ≤ 32 → pid8.toNat ≤ 3 →
      ∃ t v, crcOf w.toNat (headerBits addr payload payload.length pid8.toNat noack) = .ok v ∧
        encodeAuto w a pid8 noack addr payload s = .next t ∧
        t.env.response = some ⟨.ok, .bits
          (headerBits addr payload payload.length pid8.toNat noack ++ bitsOf (8 * w.toNat) v)⟩ ∧
        decodeFrame
            (prependPreamble (headerBits addr payload payload.length pid8.toNat noack ++ bitsOf (8 * w.toNat) v))
            a.toNat w.toNat false 1 =
          .ok ⟨addr, payload.length, payload, pid8.setWidth 2, noack, beBytes w.toNat v⟩

/-- R196: one bit flipped in the payload or CRC region of what ENCODE_AUTO answers makes the decode with T = 1 fail
with NoValidFrame, in both modes. -/
def Obligations.CorruptionIsDetected : Prop :=
  ∀ (s t : State) (w : BitVec 2) (a : BitVec 4) (pid8 : BitVec 8) (noack raw : Bool) (addr payload : List Byte)
    (x : Bits) (i : Nat) (h : i < x.length),
    w = 1 ∨ w = 2 → a ≠ 0 → addr.length = a.toNat → payload.length ≤ 32 → pid8.toNat ≤ 3 →
    encodeAuto w a pid8 noack addr payload s = .next t → t.env.response = some ⟨.ok, .bits x⟩ →
    8 * a.toNat + 9 ≤ i →
      decodeFrame (prependPreamble (x.set i (!x[i]))) a.toNat w.toNat raw 1 = .error .noValidFrame

/-! ## Registers and configuration (10_state.md, 42_scan_pipeline.md) -/

/-- R42, with the codes of R25 and R27: STATUS holds each field at its bits, the reserved bits read 0, and it reads 0
after reset. -/
def Obligations.StatusFields : Prop :=
  (∀ s : State,
    s.statusWord.extractLsb' 0 2 =
      (match s.pipeState with | .idle => 0 | .running => 1 | .stopped => 2 | .faulted => 3) ∧
    s.statusWord.extractLsb' 2 2 = (match s.fanState with | .idle => 0 | .running => 1 | .stopped => 2) ∧
    s.statusWord.getLsbD 4 = s.stopReq ∧
    s.statusWord.extractLsb' 5 1 = (match s.scan.mode with | .sweeping => 0 | .locked => 1) ∧
    s.statusWord.extractLsb' 6 2 = 0 ∧ s.statusWord.extractLsb' 8 8 = s.scan.channelIndex ∧
    s.statusWord.extractLsb' 16 16 = 0) ∧
  State.reset.statusWord = 0

/-- R41, R211, with the codes of R22 and R290: CFG_READ of every register answers its value, a reserved number
IllegalCommand, an unwritten register InvalidState; no state is written. -/
def Obligations.CfgReadAnswersRegister : Prop :=
  ∀ s : State, s.env.operand = .empty →
    exec (.cfgRead 0x00) s = .next (s.respond .ok (.word s.statusWord)) ∧
    exec (.cfgRead 0x01) s = .next (s.respond .ok (.word (s.regs.addrLen.setWidth 32))) ∧
    exec (.cfgRead 0x02) s = .next (s.respond .ok (.word (s.regs.crcLen.setWidth 32))) ∧
    exec (.cfgRead 0x03) s = .next (s.respond .ok (.word (s.regs.maxTries.setWidth 32))) ∧
    exec (.cfgRead 0x04) s = .next (s.respond .ok (.word (if s.regs.rawMode then 1 else 0))) ∧
    exec (.cfgRead 0x05) s = .next (match s.regs.lockedTimeout with
      | some v => s.respond .ok (.word v)
      | none => s.respond .invalidState .nothing) ∧
    exec (.cfgRead 0x06) s = .next (match s.regs.sweepTimeout with
      | some v => s.respond .ok (.word v)
      | none => s.respond .invalidState .nothing) ∧
    exec (.cfgRead 0x07) s = .next (s.respond .ok (.word s.regs.pollInterval)) ∧
    exec (.cfgRead 0x08) s = .next (s.respond .ok (.word (s.regs.chanCount.setWidth 32))) ∧
    exec (.cfgRead 0x09) s = .next (s.respond .ok (.word s.scan.activeTimeout)) ∧
    exec (.cfgRead 0x0A) s = .next (s.respond .ok (.word (s.scan.lastSuccess.setWidth 32))) ∧
    exec (.cfgRead 0x0B) s = .next (s.respond .ok (.word ((s.scan.lastSuccess >>> 32).setWidth 32))) ∧
    exec (.cfgRead 0x0C) s = .next (s.respond .ok (.word (s.connected.setWidth 32))) ∧
    exec (.cfgRead 0x0D) s = .next (s.respond .ok (.word (match s.faultCause with
      | .ok => 0 | .invalidPayload => 1 | .invalidPacketId => 2 | .unsupportedCrcLength => 3 | .noValidFrame => 4
      | .setFrequencyFailed => 5 | .illegalCommand => 6 | .configError => 7 | .invalidState => 8
      | .queueEmpty => 9))) ∧
    exec (.cfgRead 0x0E) s = .next (s.respond .ok (.word (s.crc.reg.setWidth 32 ||| (match s.crc.width with
      | .unconfigured => 0x00000 | .byte => 0x10000 | .half => 0x20000)))) ∧
    exec (.cfgRead 0x0F) s = .next (s.respond .illegalCommand .nothing) ∧
    ∀ (i : Nat) (h : i < 240), exec (.cfgRead (BitVec.ofNat 8 (0x10 + i))) s = .next (match s.regs.chanFreq[i] with
      | some v => s.respond .ok (.word v)
      | none => s.respond .invalidState .nothing)

/-- R213: CFG_WRITE while the pipeline is not Running stores a legal value in the named register alone, and answers
the table's status for any other value. -/
def Obligations.CfgWriteStoresLegalValue : Prop :=
  ∀ (s : State) (v : Word), s.env.operand = .word v → s.pipeState ≠ .running →
    (exec (.cfgWrite 0x01) s = .next (if 1 ≤ v.toNat ∧ v.toNat ≤ 15
      then { s with regs := { s.regs with addrLen := v.setWidth 4 } }.respond .ok .nothing
      else s.respond .configError .nothing)) ∧
    (exec (.cfgWrite 0x02) s = .next (if v = 1 ∨ v = 2
      then { s with regs := { s.regs with crcLen := v.setWidth 2 } }.respond .ok .nothing
      else if v.toNat < 4 then s.respond .unsupportedCrcLength .nothing else s.respond .configError .nothing)) ∧
    (exec (.cfgWrite 0x03) s = .next (if v.toNat ≤ 255
      then { s with regs := { s.regs with maxTries := v.setWidth 8 } }.respond .ok .nothing
      else s.respond .configError .nothing)) ∧
    (exec (.cfgWrite 0x04) s = .next (if v.toNat ≤ 1
      then { s with regs := { s.regs with rawMode := v == 1 } }.respond .ok .nothing
      else s.respond .configError .nothing)) ∧
    (exec (.cfgWrite 0x05) s =
      .next ({ s with regs := { s.regs with lockedTimeout := some v } }.respond .ok .nothing)) ∧
    (exec (.cfgWrite 0x06) s =
      .next ({ s with regs := { s.regs with sweepTimeout := some v } }.respond .ok .nothing)) ∧
    (exec (.cfgWrite 0x07) s =
      .next ({ s with regs := { s.regs with pollInterval := v } }.respond .ok .nothing)) ∧
    (exec (.cfgWrite 0x08) s = .next (if v.toNat ≤ 240
      then { s with regs := { s.regs with chanCount := v.setWidth 8 } }.respond .ok .nothing
      else s.respond .configError .nothing)) ∧
    ∀ (i : Nat) (h : i < 240), exec (.cfgWrite (BitVec.ofNat 8 (0x10 + i))) s =
      .next ({ s with regs := { s.regs with chanFreq := s.regs.chanFreq.set i (some v) } }.respond .ok .nothing)

/-- R212: a write of a reserved or read-only register is IllegalCommand in every worker state, and while the pipeline
is Running a write of any other register is InvalidState; neither changes anything. -/
def Obligations.CfgWriteAccess : Prop :=
  ∀ (s : State) (v : Word) (r : BitVec 8), s.env.operand = .word v →
    (r = 0x00 ∨ (0x09 ≤ r.toNat ∧ r.toNat ≤ 0x0F) →
      exec (.cfgWrite r) s = .next (s.respond .illegalCommand .nothing)) ∧
    (¬(r = 0x00 ∨ (0x09 ≤ r.toNat ∧ r.toNat ≤ 0x0F)) → s.pipeState = .running →
      exec (.cfgWrite r) s = .next (s.respond .invalidState .nothing))

/-- R211, R212: after a CFG_WRITE that answers OK, CFG_READ of that register answers the value written, and CFG_READ
of every other register answers what it answered before. -/
def Obligations.CfgReadAfterWrite : Prop :=
  ∀ (s t : State) (r q : BitVec 8) (v : Word), issue (.cfgWrite r) (.word v) s = .next t →
    t.env.response = some ⟨.ok, .nothing⟩ →
      ∃ u u', issue (.cfgRead q) .empty t = .next u ∧ issue (.cfgRead q) .empty s = .next u' ∧
        (q = r → u.env.response = some ⟨.ok, .word v⟩) ∧ (q ≠ r → u.env.response = u'.env.response)

/-- R86: no configuration register changes while the pipeline is Running, whatever step is taken but RESET. -/
def Obligations.ConfigurationFixedWhileRunning : Prop :=
  ∀ s t : State, s.pipeState = .running → s.nextEvent ≠ .reset → step s = .next t → t.regs = s.regs

/-! ## START, STOP and PUSH_CAND (42_scan_pipeline.md) -/

/-- R214, R216, with the clock agent of notes/assumptions/3.md and the tuner agent of 4.md: START with no worker
Running, the pipeline not Faulted, a complete configuration and a tuner that returns ok samples the clock once, sets
the start values, calls the tuner once with channel 0's frequency and runs both workers; registers, queues,
subscribers, the CRC unit and the fault cause are kept. -/
def Obligations.StartRunsBothWorkers : Prop :=
  ∀ (s : State) (f sweep : Word), s.env.operand = .empty →
    s.pipeState = .idle ∨ s.pipeState = .stopped → s.fanState ≠ .running →
    1 ≤ s.regs.chanCount.toNat → (∀ i, i < s.regs.chanCount.toNat → ∃ g, s.regs.freq i = some g) →
    (∃ l, s.regs.lockedTimeout = some l) → s.regs.sweepTimeout = some sweep → s.regs.freq 0 = some f →
    s.startScan.tunerReturnsOk f = true →
      ∃ t, exec .start s = .next t ∧ t.env.response = some ⟨.ok, .nothing⟩ ∧
        t = { s with scan := ⟨0, .sweeping, s.clockSample, sweep⟩, lastNow := s.clockSample, stopReq := false
                     pipeState := .running, fanState := .running, env := t.env } ∧
        t.env.tunerLog = s.env.tunerLog ++ [f] ∧ t.env.pending = s.env.pending

/-- R214, R293, with the clock agent of notes/assumptions/3.md and the tuner agent of 4.md: a START whose tuner call
fails answers SetFrequencyFailed, keeps its writes, and leaves the pipeline Faulted with cause 5 and the fan-out as it
was. -/
def Obligations.StartFaultsWhenTunerFails : Prop :=
  ∀ (s : State) (f sweep : Word), s.env.operand = .empty →
    s.pipeState = .idle ∨ s.pipeState = .stopped → s.fanState ≠ .running →
    1 ≤ s.regs.chanCount.toNat → (∀ i, i < s.regs.chanCount.toNat → ∃ g, s.regs.freq i = some g) →
    (∃ l, s.regs.lockedTimeout = some l) → s.regs.sweepTimeout = some sweep → s.regs.freq 0 = some f →
    s.startScan.tunerReturnsOk f = false →
      ∃ t, exec .start s = .next t ∧ t.env.response = some ⟨.setFrequencyFailed, .nothing⟩ ∧
        t = { s with scan := ⟨0, .sweeping, s.clockSample, sweep⟩, lastNow := s.clockSample, stopReq := false
                     pipeState := .faulted, faultCause := .setFrequencyFailed, env := t.env } ∧
        t.env.tunerLog = s.env.tunerLog ++ [f]

/-- R214, R215: START with an incomplete configuration answers ConfigError, and START while a worker is Running or the
pipeline is Faulted answers InvalidState first; neither changes anything. -/
def Obligations.StartRefusals : Prop :=
  ∀ s : State, s.env.operand = .empty →
    (s.pipeState = .running ∨ s.pipeState = .faulted ∨ s.fanState = .running →
      exec .start s = .next (s.respond .invalidState .nothing)) ∧
    (s.pipeState = .idle ∨ s.pipeState = .stopped → s.fanState ≠ .running →
      (s.regs.chanCount = 0 ∨ (∃ i, i < s.regs.chanCount.toNat ∧ s.regs.freq i = none) ∨
        s.regs.lockedTimeout = none ∨ s.regs.sweepTimeout = none) →
        exec .start s = .next (s.respond .configError .nothing))

/-- R217, R218: STOP sets the stop flag alone, in every worker state, and twice as once; PUSH_CAND appends its
sequence to `inq` alone, in every worker state. -/
def Obligations.StopAndPushCommands : Prop :=
  (∀ s : State, s.env.operand = .empty → exec .stop s = .next ({ s with stopReq := true }.respond .ok .nothing)) ∧
  (∀ s t : State, s.env.operand = .empty → exec .stop s = .next t → exec .stop t = .next t) ∧
  (∀ (s : State) (b : Bits), s.env.operand = .bits b →
    exec .pushCand s = .next ({ s with inq := s.inq ++ [b] }.respond .ok .nothing))

/-! ## The pipeline worker and the scan (42_scan_pipeline.md) -/

/-- R219: a pipeline step that finds the stop flag set moves the worker to Stopped and does nothing else. -/
def Obligations.PipelineStopCheck : Prop :=
  ∀ s : State, s.pipeState = .running → s.stopReq = true → s.pipeTurn = { s with pipeState := .stopped }

/-- R220, R222, R229, with the clock agent of notes/assumptions/3.md: a tick whose decode succeeds pushes the frame,
locks, samples the clock once and never hops. -/
def Obligations.SuccessTickLocksAndNeverHops : Prop :=
  ∀ (s : State) (b : Bits) (rest : List Bits) (f : Frame) (lt : Word), s.Ticks → s.inq = b :: rest →
    s.regs.decodeCand b = .ok f → s.regs.lockedTimeout = some lt →
      ∃ t, s.pipeTurn = t ∧
        t = { s with inq := rest, frameq := s.frameq ++ [f], lastNow := s.clockSample, env := t.env
                     scan := ⟨s.scan.channelIndex, .locked, s.clockSample, lt⟩ } ∧
        t.env.tunerLog = s.env.tunerLog ∧ t.env.response = s.env.response

/-- R221, R223, with the clock agent of notes/assumptions/3.md: a tick with no candidate or a failed decode, no later
than the active timeout after the last success, changes nothing but `last_now` and, with a candidate, `inq`. -/
def Obligations.QuietTickChangesNoScanState : Prop :=
  ∀ s : State, s.Ticks → (∀ b rest, s.inq = b :: rest → ∃ e, s.regs.decodeCand b = .error e) →
    (s.clockSample - s.scan.lastSuccess).toNat ≤ s.scan.activeTimeout.toNat →
      ∃ t, s.pipeTurn = t ∧ t = { s with inq := s.inq.tail, lastNow := s.clockSample, env := t.env } ∧
        t.env.tunerLog = s.env.tunerLog ∧ t.env.response = s.env.response

/-- R224, R226, with the clock and tuner agents of notes/assumptions/3.md and 4.md: a tick with no success and
strictly more than the active timeout since the last success hops: the next channel modulo CHAN_COUNT, Sweeping,
SWEEP_TIMEOUT, `lastSuccess` at the sample, one tuner call with the new channel's frequency, and Faulted with cause 5
exactly where it fails. -/
def Obligations.ExpiredTickHops : Prop :=
  ∀ (s : State) (i : BitVec 8) (f sweep : Word), s.Ticks → s.faultCause = .ok →
    (∀ b rest, s.inq = b :: rest → ∃ e, s.regs.decodeCand b = .error e) →
    s.scan.activeTimeout.toNat < (s.clockSample - s.scan.lastSuccess).toNat →
    s.regs.chanCount ≠ 0 → i.toNat = (s.scan.channelIndex.toNat + 1) % s.regs.chanCount.toNat →
    s.regs.freq i.toNat = some f → s.regs.sweepTimeout = some sweep →
      ∃ t ok, s.pipeTurn = t ∧
        t = { s with inq := s.inq.tail, lastNow := s.clockSample, scan := ⟨i, .sweeping, s.clockSample, sweep⟩
                     pipeState := if ok then .running else .faulted
                     faultCause := if ok then .ok else .setFrequencyFailed, env := t.env } ∧
        ok = s.afterSample.tunerReturnsOk f ∧
        t.env.tunerLog = s.env.tunerLog ++ [f] ∧ t.env.response = s.env.response

/-- R230: `mode` never decides a transition: two states that differ only in it take pipeline turns to states that
differ at most in it. -/
def Obligations.ModeNeverDecides : Prop :=
  ∀ (s : State) (m n : Mode),
    let u := ({ s with scan := { s.scan with mode := m } } : State).pipeTurn
    ({ u with scan := { u.scan with mode := n } } : State) =
      { s.pipeTurn with scan := { s.pipeTurn.scan with mode := n } }

/-- R231, with the clock agent of notes/assumptions/3.md: in a run of idle ticks whose draws all lie within the active
timeout of the last success the channel is kept and the tuner is not called, and the first draw beyond it hops to the
next channel. -/
def Obligations.DwellThenHop : Prop :=
  ∀ (s : State) (ds rest : List Timestamp) (d : Timestamp), s.Ticks → s.inq = [] → s.TimeOk →
    s.env.clockIn = ds ++ d :: rest → s.regs.chanCount ≠ 0 →
    s.lastNow.toNat ≤ s.scan.lastSuccess.toNat + s.scan.activeTimeout.toNat →
    (∀ x ∈ ds, x.toNat ≤ s.scan.lastSuccess.toNat + s.scan.activeTimeout.toNat) →
    s.scan.lastSuccess.toNat + s.scan.activeTimeout.toNat < d.toNat →
      (∀ n, n ≤ ds.length → (State.pipeTurn^[n] s).scan = s.scan ∧
        (State.pipeTurn^[n] s).env.tunerLog = s.env.tunerLog) ∧
      (State.pipeTurn^[ds.length + 1] s).scan.channelIndex.toNat =
        (s.scan.channelIndex.toNat + 1) % s.regs.chanCount.toNat ∧
      (State.pipeTurn^[ds.length + 1] s).scan.lastSuccess = d ∧
      (State.pipeTurn^[ds.length + 1] s).scan.mode = .sweeping

/-- R235: as long as the pipeline ticks, frames enter `frameq` in the order their candidates leave `inq`, one
candidate a tick, failed decodes dropped. -/
def Obligations.PipelinePreservesOrder : Prop :=
  ∀ (s : State) (n : Nat), n ≤ s.inq.length → (∀ m, m < n → (State.pipeTurn^[m] s).Ticks) →
    (State.pipeTurn^[n] s).inq = s.inq.drop n ∧
    (State.pipeTurn^[n] s).frameq =
      s.frameq ++ (s.inq.take n).filterMap fun b => (s.regs.decodeCand b).toOption

/-- R226, R300, R293: Faulted holds with cause 5, no tuner call and no scan change, through every step but RESET. -/
def Obligations.FaultedUntilReset : Prop :=
  ∀ s t : State, s.pipeState = .faulted → s.nextEvent ≠ .reset → step s = .next t →
    t.pipeState = .faulted ∧ t.faultCause = s.faultCause ∧ t.scan = s.scan ∧ t.env.tunerLog = s.env.tunerLog

/-- R26, R225: only the pipeline worker's steps, START and RESET write the scan state; and a step calls the tuner
exactly where it is a START that starts, with channel 0's frequency, or a pipeline turn that hops, with the new
channel's. The sample and the log of calls are the model's own (notes/assumptions/3.md, 11.md). -/
def Obligations.ScanStateWriters : Prop :=
  ∀ s t : State, step s = .next t →
    (t.scan ≠ s.scan →
      s.nextEvent = .pipeTurn ∨ s.nextEvent = .reset ∨
        ∃ w d, s.nextEvent = .command w d ∧ decode w = .ok .start) ∧
    (s.Starting → t.env.tunerLog = s.env.tunerLog ++ [s.regs.freqValue 0]) ∧
    (s.Hopping → t.env.tunerLog = s.env.tunerLog ++ [s.regs.freqValue t.scan.channelIndex.toNat]) ∧
    (¬ s.Starting → ¬ s.Hopping → t.env.tunerLog = s.env.tunerLog)

/-! ## The fan-out and the subscribers (43_fanout.md) -/

/-- R261, R270: CONNECT connects its slot and changes nothing else; of a connected slot it changes nothing. -/
def Obligations.ConnectSetsOneSlot : Prop :=
  ∀ (s : State) (k : BitVec 4), s.env.operand = .empty →
    ∃ t : State, exec (.connect k) s = .next (t.respond .ok .nothing) ∧ t = { s with connected := t.connected } ∧
      (∀ j : BitVec 4, t.isConnected j.toNat = (s.isConnected j.toNat || j == k)) ∧
      (s.isConnected k.toNat = true → t = s)

/-- R262: POP of a connected slot answers the head of its queue and removes it, of an empty one QueueEmpty, of an
unconnected slot InvalidState; no other queue and nothing else changes. -/
def Obligations.PopTakesHead : Prop :=
  ∀ (s : State) (k : BitVec 4), s.env.operand = .empty →
    (∀ f rest, s.isConnected k.toNat = true → s.slotQueue k = f :: rest →
      ∃ t : State, exec (.pop k) s = .next (t.respond .ok (.frame f)) ∧ t = { s with subq := t.subq } ∧
        ∀ j : BitVec 4, t.slotQueue j = if j = k then rest else s.slotQueue j) ∧
    (s.isConnected k.toNat = true → s.slotQueue k = [] →
      exec (.pop k) s = .next (s.respond .queueEmpty .nothing)) ∧
    (s.isConnected k.toNat = false → exec (.pop k) s = .next (s.respond .invalidState .nothing))

/-- R263, R264: the fan-out's turn: the stop check first; with a frame it pops it and pushes it to every connected
slot's queue and no other; with none nothing changes. That the turn of a fan-out that is not Running, Idle or Stopped,
leaves the state unchanged is the model's choice (notes/assumptions/17.md). -/
def Obligations.FanoutTurn : Prop :=
  ∀ s : State,
    (s.fanState = .running → s.stopReq = true → s.fanTurn = { s with fanState := .stopped }) ∧
    (∀ f rest, s.fanState = .running → s.stopReq = false → s.frameq = f :: rest →
      ∃ t, s.fanTurn = t ∧ t = { s with frameq := rest, subq := t.subq } ∧
        ∀ k : BitVec 4, t.slotQueue k = if s.isConnected k.toNat then s.slotQueue k ++ [f] else s.slotQueue k) ∧
    (s.fanState = .running → s.stopReq = false → s.frameq = [] → s.fanTurn = s) ∧
    (s.fanState ≠ .running → s.fanTurn = s)

/-- R265, R266: no replay: a slot connected between the deliveries of `early` and of `late` receives exactly `late`,
in order, and a slot connected before receives all of both in order. -/
def Obligations.NoReplayAfterConnect : Prop :=
  ∀ (s : State) (k : BitVec 4) (early late : List Frame), s.fanState = .running → s.stopReq = false →
    s.frameq = early ++ late → s.isConnected k.toNat = false →
      ∃ u, issue (.connect k) .empty (State.fanTurn^[early.length] s) = .next u ∧
        (State.fanTurn^[late.length] u).slotQueue k = s.slotQueue k ++ late ∧
        (State.fanTurn^[late.length] u).frameq = [] ∧
        ∀ j : BitVec 4, s.isConnected j.toNat = true →
          (State.fanTurn^[late.length] u).slotQueue j = s.slotQueue j ++ early ++ late

/-- R34: nothing but RESET disconnects a slot. -/
def Obligations.OnlyResetDisconnects : Prop :=
  ∀ (s t : State) (k : Nat), s.nextEvent ≠ .reset → step s = .next t → s.isConnected k = true →
    t.isConnected k = true

/-! ## The whole machine -/

/-- R38, R77, R170, R192: CRC8, CRC16, CRC_READ, ENCODE, DECODE, CFG_READ and the failing CRC_SEQ forms write nothing
but their response. -/
def Obligations.AnsweringCommandsWriteNothing : Prop :=
  ∀ (i : Instr) (s t : State), answersOnly i = true → exec i s = .next t →
    t = { s with env := { s.env with response := t.env.response } }

/-- R291: a command that answers a status other than OK returns no data and changes no state, with the one exception
of START answering SetFrequencyFailed. -/
def Obligations.FailingCommandChangesNothing : Prop :=
  ∀ (i : Instr) (s t : State) (r : Response), exec i s = .next t → t.env.response = some r → r.status ≠ .ok →
    r.data = .nothing ∧ ((i = .start ∧ r.status = .setFrequencyFailed) ∨ t = s.respond r.status .nothing)

/-- R30, with the clock agent of notes/assumptions/3.md (the model's choice of how a draw becomes a sample):
`last_now` never decreases in a step that is not RESET. -/
def Obligations.ClockNeverRunsBack : Prop :=
  ∀ s t : State, s.nextEvent ≠ .reset → step s = .next t → s.lastNow.toNat ≤ t.lastNow.toNat

/-- R330, R58: RESET in any state gives every piece of the block's state its reset value. That the world outside is
left as it is, is the model's choice (notes/assumptions/11.md). -/
def Obligations.ResetRestoresEveryValue : Prop :=
  (∀ (s : State) (rest : List Event), s.env.pending = .reset :: rest →
    ∃ t, step s = .next t ∧ t = { State.reset with env := t.env } ∧ t.env.pending = rest ∧
      t.env.tunerLog = s.env.tunerLog) ∧
  State.reset.crc = ⟨0, .unconfigured⟩ ∧ State.reset.scan = ⟨0, .sweeping, 0, 0⟩ ∧
  State.reset.pipeState = .idle ∧ State.reset.fanState = .idle ∧ State.reset.stopReq = false ∧
  State.reset.faultCause = .ok ∧ State.reset.lastNow = 0 ∧ State.reset.regs.addrLen = 5 ∧
  State.reset.regs.crcLen = 2 ∧ State.reset.regs.maxTries = 8 ∧ State.reset.regs.rawMode = true ∧
  State.reset.regs.lockedTimeout = none ∧ State.reset.regs.sweepTimeout = none ∧
  State.reset.regs.pollInterval = 100000 ∧ State.reset.regs.chanCount = 0 ∧
  (∀ (i : Nat) (h : i < 240), State.reset.regs.chanFreq[i] = none) ∧
  State.reset.inq = [] ∧ State.reset.frameq = [] ∧ (∀ k : BitVec 4, State.reset.slotQueue k = []) ∧
  State.reset.connected = 0

/-- The invariant holds after RESET. -/
def Obligations.InvariantHoldsAtReset : Prop := State.reset.Inv

/-- Every step of every agent keeps the invariant: legal registers (R43, R44, R50), a Running pipeline configured and
inside its channel table (R24, R215), the fault cause 5 exactly while Faulted (R29, R226), every queued frame sound
(R36), unconnected slots empty (R261), no success after the last sample (R30), and nothing run before the first START
(R27). -/
def Obligations.EveryStepKeepsInvariant : Prop :=
  ∀ s t : State, s.Inv → step s = .next t → t.Inv
end

