-- ==== Sys2Proof/Laws/Bits.lean ====
section
/-! SUPPORT. Bit sequences, byte strings and their numbers (R9, R10): lengths, slices and the inverses. -/

namespace Sys2Proof.Machine

/-! ### Lengths -/

@[simp] theorem bitsOf_length : ∀ n v, (bitsOf n v).length = n
  | 0, _ => rfl
  | n + 1, v => by simp [bitsOf, bitsOf_length n v]

@[simp] theorem bytesToBits_nil : bytesToBits [] = [] := rfl

theorem bytesToBits_cons (b : Byte) (bs : List Byte) : bytesToBits (b :: bs) = bitsOf 8 b.toNat ++ bytesToBits bs := rfl

@[simp] theorem bytesToBits_length (bs : List Byte) : (bytesToBits bs).length = 8 * bs.length := by
  induction bs with
  | nil => rfl
  | cons b bs ih => simp only [bytesToBits_cons, List.length_append, bitsOf_length, ih, List.length_cons]; omega

@[simp] theorem beBytes_length (c v : Nat) : (beBytes c v).length = c := by simp [beBytes]

theorem bitsToBytes_length (s : Bits) (n : Nat) (h : s.length = 8 * n) : (bitsToBytes s).length = n := by
  simp [bitsToBytes, h]

theorem slice_length (s : Bits) (i n : Nat) (h : i + n ≤ s.length) : (slice s i n).length = n := by
  simp only [slice, List.length_take, List.length_drop]
  omega

/-! ### Slices of a concatenation -/

/-- The slice at the place and of the length of a middle part is that part. -/
theorem slice_middle (s t u : Bits) (i n : Nat) (hi : s.length = i) (hn : t.length = n) :
    slice (s ++ (t ++ u)) i n = t := by
  subst hi hn
  simp [slice]

/-- A slice inside the first part does not see the second. -/
theorem slice_append_left (s t : Bits) (i n : Nat) (h : i + n ≤ s.length) : slice (s ++ t) i n = slice s i n := by
  simp only [slice]
  rw [List.drop_append_of_le_length (by omega), List.take_append_of_le_length (by rw [List.length_drop]; omega)]

/-- A slice behind the first part is a slice of the second. -/
theorem slice_append_right (s t : Bits) (i n : Nat) : slice (s ++ t) (s.length + i) n = slice t i n := by
  rw [slice, slice, List.drop_append, List.drop_eq_nil_of_le (Nat.le_add_right _ _)]
  simp

/-! ### The number of a bit sequence -/

theorem foldl_uint (s : Bits) : ∀ acc, s.foldl (fun acc b => 2 * acc + b.toNat) acc = acc * 2 ^ s.length + uint s := by
  unfold uint
  induction s with
  | nil => intro acc; simp
  | cons b s ih =>
    intro acc
    simp only [List.foldl_cons, List.length_cons]
    rw [ih, ih (2 * 0 + b.toNat)]
    ring

@[simp] theorem uint_nil : uint [] = 0 := rfl

theorem uint_cons (b : Bool) (s : Bits) : uint (b :: s) = b.toNat * 2 ^ s.length + uint s := by
  rw [show uint (b :: s) = s.foldl (fun acc b => 2 * acc + b.toNat) (2 * 0 + b.toNat) from rfl, foldl_uint]
  simp

theorem uint_append (s t : Bits) : uint (s ++ t) = uint s * 2 ^ t.length + uint t := by
  rw [← foldl_uint t (uint s)]
  simp [uint]

theorem uint_lt (s : Bits) : uint s < 2 ^ s.length := by
  induction s with
  | nil => simp
  | cons b s ih => rw [uint_cons]; cases b <;> (simp [pow_succ]; omega)

/-- `uint(bits_N(v)) = v mod 2^N` (R9). -/
theorem uint_bitsOf : ∀ n v, uint (bitsOf n v) = v % 2 ^ n
  | 0, v => by simp [bitsOf, Nat.mod_one]
  | n + 1, v => by
    rw [bitsOf, uint_cons, uint_bitsOf n v, bitsOf_length, Nat.mod_pow_succ, Nat.testBit_eq_decide_div_mod_eq]
    rcases Nat.mod_two_eq_zero_or_one (v / 2 ^ n) with h | h
    · simp [h]
    · simp [h]
      omega

/-- A sequence is determined by its length and its number. -/
theorem uint_inj : ∀ s t : Bits, s.length = t.length → uint s = uint t → s = t
  | [], t, h, _ => (List.length_eq_zero_iff.mp h.symm).symm
  | a :: s, [], h, _ => by simp at h
  | a :: s, b :: t, h, he => by
    simp only [List.length_cons, Nat.add_right_cancel_iff] at h
    rw [uint_cons, uint_cons, h] at he
    have h1 := uint_lt s
    have h2 := uint_lt t
    rw [h] at h1
    have hab : a = b := by cases a <;> cases b <;> simp at he ⊢ <;> omega
    subst hab
    rw [uint_inj s t h (by omega)]

theorem bitsOf_uint (s : Bits) : bitsOf s.length (uint s) = s :=
  uint_inj _ _ (bitsOf_length _ _) (by rw [uint_bitsOf, Nat.mod_eq_of_lt (uint_lt s)])

/-! ### Bytes -/

theorem slice_bytesToBits : ∀ (bs : List Byte) (j : Nat) (h : j < bs.length),
    slice (bytesToBits bs) (8 * j) 8 = bitsOf 8 bs[j].toNat
  | [], _, h => by simp at h
  | b :: bs, 0, _ => by
    exact slice_middle [] (bitsOf 8 b.toNat) (bytesToBits bs) 0 8 rfl (bitsOf_length _ _)
  | b :: bs, j + 1, h => by
    have e := slice_append_right (bitsOf 8 b.toNat) (bytesToBits bs) (8 * j) 8
    rw [bitsOf_length] at e
    rw [bytesToBits_cons, show 8 * (j + 1) = 8 + 8 * j by omega, e,
      slice_bytesToBits bs j (by simpa using h)]
    rfl

/-- `bits_to_bytes` inverts `bytes_to_bits` (R10). -/
@[simp] theorem bitsToBytes_bytesToBits (bs : List Byte) : bitsToBytes (bytesToBits bs) = bs := by
  apply List.ext_getElem
  · simp [bitsToBytes]
  · intro j _ h
    simp only [bitsToBytes, List.getElem_map, List.getElem_range]
    rw [slice_bytesToBits bs j h, uint_bitsOf]
    apply BitVec.eq_of_toNat_eq
    simpa using bs[j].isLt

/-- `bytes_to_bits(be_C(v)) = bits_(8C)(v)` for one byte (R10). -/
theorem bytesToBits_beBytes_one (v : Nat) : bytesToBits (beBytes 1 v) = bitsOf 8 v := by
  apply uint_inj _ _ (by simp)
  simp [beBytes, bytesToBits, List.range_succ, uint_bitsOf]

/-- `bytes_to_bits(be_C(v)) = bits_(8C)(v)` for two bytes (R10). -/
theorem bytesToBits_beBytes_two (v : Nat) : bytesToBits (beBytes 2 v) = bitsOf 16 v := by
  apply uint_inj _ _ (by simp)
  simp only [beBytes, bytesToBits, List.range_succ, List.range_zero, List.nil_append, List.map_cons,
    List.map_nil, List.cons_append, List.flatMap_cons, List.flatMap_nil, List.append_nil, uint_append, uint_bitsOf,
    bitsOf_length, BitVec.toNat_ofNat, Nat.shiftRight_eq_div_pow]
  omega

/-- A CRC field of one or two bytes, read as a number and written back, is its own bytes (R10, R188). -/
theorem beBytes_uint (c : Nat) (s : Bits) (hc : c = 1 ∨ c = 2) (h : s.length = 8 * c) :
    beBytes c (uint s) = bitsToBytes s := by
  have hs : bytesToBits (beBytes c (uint s)) = bitsOf s.length (uint s) := by
    rcases hc with rfl | rfl
    · rw [bytesToBits_beBytes_one, h]
    · rw [bytesToBits_beBytes_two, h]
  rw [← bitsToBytes_bytesToBits (beBytes c (uint s)), hs, bitsOf_uint]

end Sys2Proof.Machine
end

