-- ==== Sys2Proof/Laws/Crc.lean ====
section
/-! SUPPORT. The LFSR step and the checksum by length (R142 to R144). -/

namespace Sys2Proof.Machine

/-- The two cases of a step (R142). -/
theorem crcStep_cases (p r : BitVec n) (b : Bool) :
    (r.msb ≠ b ∧ crcStep p r b = (r <<< 1) ^^^ p) ∨ (r.msb = b ∧ crcStep p r b = r <<< 1) := by
  unfold crcStep
  cases h : r.msb <;> cases b <;> simp

/-- One step is affine over GF(2) (R152). -/
theorem crcStep_xor (p r q : BitVec n) (a b : Bool) :
    crcStep p r a ^^^ crcStep p q b = crcStep p (r ^^^ q) (a ^^ b) := by
  have hm : (r ^^^ q).msb = (r.msb ^^ q.msb) := by simp
  have hs : (r ^^^ q) <<< 1 = (r <<< 1) ^^^ (q <<< 1) := by
    ext i hi
    simp
    grind
  unfold crcStep
  rw [hm, hs]
  cases r.msb <;> cases q.msb <;> cases a <;> cases b <;> simp <;> (ext i hi; simp; try grind)

/-- Everything the checksum by length can answer (R144). -/
theorem crcOf_cases (c : Nat) (s : Bits) :
    (c = 1 ∧ crcOf c s = .ok (crc8 s).toNat) ∨ (c = 2 ∧ crcOf c s = .ok (crc16 s).toNat) ∨
      (c ≠ 1 ∧ c ≠ 2 ∧ crcOf c s = .error .unsupportedCrcLength) := by
  match c with
  | 0 => simp [crcOf]
  | 1 => simp [crcOf]
  | 2 => simp [crcOf]
  | c + 3 => simp [crcOf]

end Sys2Proof.Machine
end

