-- ==== Sys2Proof/Laws/Codec.lean ====
section
/-! SUPPORT. What one candidate of a decode can give (R182 to R188), and the length of the covered bits. -/

namespace Sys2Proof.Machine

/-- The covered bits are `8A + 9 + 8L` bits (R101, R103). -/
@[simp] theorem headerBits_length (addr payload : List Byte) (len pid : Nat) (noack : Bool) :
    (headerBits addr payload len pid noack).length = 8 * addr.length + 9 + 8 * payload.length := by
  simp only [headerBits, List.length_append, bytesToBits_length, bitsOf_length, List.length_cons, List.length_nil]

/-- The candidate at `off` passes the length checks of R182 to R184. -/
def Fits (s : Bits) (a c off : Nat) : Prop :=
  off + 8 + 8 * a + 6 ≤ s.length ∧ lengthField s a (off + 8) ≤ 32 ∧
    off + 8 + 8 * a + 9 + 8 * lengthField s a (off + 8) + 8 * c ≤ s.length

/-- A candidate that does not pass the length checks is skipped (R182 to R184). -/
theorem tryCandidate_of_not_fits (s : Bits) (a c off : Nat) (h : ¬ Fits s a c off) :
    tryCandidate false s a c off = .ok none := by
  unfold tryCandidate
  simp only [show fieldBase off = off + 8 from rfl]
  split; · rfl
  split; · rfl
  split; · rfl
  rename_i h1 h2 h3
  simp only [show Config.params.maxPayload = 32 from rfl, Bool.not_false, and_true, Nat.not_lt] at h1 h2 h3
  exact absurd ⟨by omega, h2, by omega⟩ h

/-- A candidate that passes the length checks is judged by its CRC alone (R185 to R187). -/
theorem tryCandidate_of_fits (s : Bits) (a c off : Nat) (h : Fits s a c off) :
    (∀ e, crcOf c (slice s (off + 8) (8 * a + 9 + 8 * lengthField s a (off + 8))) = .error e →
      tryCandidate false s a c off = .error e) ∧
    (∀ v, crcOf c (slice s (off + 8) (8 * a + 9 + 8 * lengthField s a (off + 8))) = .ok v →
      tryCandidate false s a c off =
        if v = uint (slice s (off + 8 + 8 * a + 9 + 8 * lengthField s a (off + 8)) (8 * c)) then
          .ok (some (frameAt s a c (off + 8) (lengthField s a (off + 8))
            (uint (slice s (off + 8 + 8 * a + 9 + 8 * lengthField s a (off + 8)) (8 * c)))))
        else .ok none) := by
  obtain ⟨h1, h2, h3⟩ := h
  unfold tryCandidate
  simp only [show fieldBase off = off + 8 from rfl, show Config.params.maxPayload = 32 from rfl]
  rw [if_neg (by omega), if_neg (fun h => absurd h.1 (Nat.not_lt.mpr h2)), if_neg (by omega)]
  constructor
  · intro e he
    rw [he]
  · intro v hv
    rw [hv]

/-- The fields of a candidate that passes the length checks have their lengths (R188). -/
theorem frameAt_lengths (s : Bits) (a c off got : Nat) (h : Fits s a c off) :
    (frameAt s a c (off + 8) (lengthField s a (off + 8)) got).address.length = a ∧
    (frameAt s a c (off + 8) (lengthField s a (off + 8)) got).payload.length = lengthField s a (off + 8) ∧
    (frameAt s a c (off + 8) (lengthField s a (off + 8)) got).crc.length = c := by
  obtain ⟨h1, h2, h3⟩ := h
  exact ⟨bitsToBytes_length _ _ (slice_length _ _ _ (by omega)),
    bitsToBytes_length _ _ (slice_length _ _ _ (by omega)), beBytes_length _ _⟩

end Sys2Proof.Machine
end

