-- ==== Sys2Proof/Laws/State.lean ====
section
/-! SUPPORT. One lemma per field per named update of State. -/

namespace Sys2Proof.Machine.State

/-! ### respond -/

@[simp] theorem respond_crc (s : State) (e : Status) (d : Data) : (s.respond e d).crc = s.crc := rfl
@[simp] theorem respond_scan (s : State) (e : Status) (d : Data) : (s.respond e d).scan = s.scan := rfl
@[simp] theorem respond_pipeState (s : State) (e : Status) (d : Data) : (s.respond e d).pipeState = s.pipeState := rfl
@[simp] theorem respond_fanState (s : State) (e : Status) (d : Data) : (s.respond e d).fanState = s.fanState := rfl
@[simp] theorem respond_stopReq (s : State) (e : Status) (d : Data) : (s.respond e d).stopReq = s.stopReq := rfl
@[simp] theorem respond_faultCause (s : State) (e : Status) (d : Data) : (s.respond e d).faultCause = s.faultCause := rfl
@[simp] theorem respond_lastNow (s : State) (e : Status) (d : Data) : (s.respond e d).lastNow = s.lastNow := rfl
@[simp] theorem respond_regs (s : State) (e : Status) (d : Data) : (s.respond e d).regs = s.regs := rfl
@[simp] theorem respond_inq (s : State) (e : Status) (d : Data) : (s.respond e d).inq = s.inq := rfl
@[simp] theorem respond_frameq (s : State) (e : Status) (d : Data) : (s.respond e d).frameq = s.frameq := rfl
@[simp] theorem respond_subq (s : State) (e : Status) (d : Data) : (s.respond e d).subq = s.subq := rfl
@[simp] theorem respond_connected (s : State) (e : Status) (d : Data) : (s.respond e d).connected = s.connected := rfl
@[simp] theorem respond_env_pending (s : State) (e : Status) (d : Data) : (s.respond e d).env.pending = s.env.pending := rfl
@[simp] theorem respond_env_operand (s : State) (e : Status) (d : Data) : (s.respond e d).env.operand = s.env.operand := rfl
@[simp] theorem respond_env_response (s : State) (e : Status) (d : Data) : (s.respond e d).env.response = some ⟨e, d⟩ := rfl
@[simp] theorem respond_env_clockIn (s : State) (e : Status) (d : Data) : (s.respond e d).env.clockIn = s.env.clockIn := rfl
@[simp] theorem respond_env_tunerIn (s : State) (e : Status) (d : Data) : (s.respond e d).env.tunerIn = s.env.tunerIn := rfl
@[simp] theorem respond_env_tunerLog (s : State) (e : Status) (d : Data) : (s.respond e d).env.tunerLog = s.env.tunerLog := rfl
@[simp] theorem respond_env_draws (s : State) (e : Status) (d : Data) : (s.respond e d).env.draws = s.env.draws := rfl

/-! ### present -/

@[simp] theorem present_crc (s : State) (d : Operand) : (s.present d).crc = s.crc := rfl
@[simp] theorem present_scan (s : State) (d : Operand) : (s.present d).scan = s.scan := rfl
@[simp] theorem present_pipeState (s : State) (d : Operand) : (s.present d).pipeState = s.pipeState := rfl
@[simp] theorem present_fanState (s : State) (d : Operand) : (s.present d).fanState = s.fanState := rfl
@[simp] theorem present_stopReq (s : State) (d : Operand) : (s.present d).stopReq = s.stopReq := rfl
@[simp] theorem present_faultCause (s : State) (d : Operand) : (s.present d).faultCause = s.faultCause := rfl
@[simp] theorem present_lastNow (s : State) (d : Operand) : (s.present d).lastNow = s.lastNow := rfl
@[simp] theorem present_regs (s : State) (d : Operand) : (s.present d).regs = s.regs := rfl
@[simp] theorem present_inq (s : State) (d : Operand) : (s.present d).inq = s.inq := rfl
@[simp] theorem present_frameq (s : State) (d : Operand) : (s.present d).frameq = s.frameq := rfl
@[simp] theorem present_subq (s : State) (d : Operand) : (s.present d).subq = s.subq := rfl
@[simp] theorem present_connected (s : State) (d : Operand) : (s.present d).connected = s.connected := rfl
@[simp] theorem present_env_pending (s : State) (d : Operand) : (s.present d).env.pending = s.env.pending := rfl
@[simp] theorem present_env_operand (s : State) (d : Operand) : (s.present d).env.operand = d := rfl
@[simp] theorem present_env_response (s : State) (d : Operand) : (s.present d).env.response = s.env.response := rfl
@[simp] theorem present_env_clockIn (s : State) (d : Operand) : (s.present d).env.clockIn = s.env.clockIn := rfl
@[simp] theorem present_env_tunerIn (s : State) (d : Operand) : (s.present d).env.tunerIn = s.env.tunerIn := rfl
@[simp] theorem present_env_tunerLog (s : State) (d : Operand) : (s.present d).env.tunerLog = s.env.tunerLog := rfl
@[simp] theorem present_env_draws (s : State) (d : Operand) : (s.present d).env.draws = s.env.draws := rfl

/-! ### afterEvent -/

@[simp] theorem afterEvent_crc (s : State) : s.afterEvent.crc = s.crc := rfl
@[simp] theorem afterEvent_scan (s : State) : s.afterEvent.scan = s.scan := rfl
@[simp] theorem afterEvent_pipeState (s : State) : s.afterEvent.pipeState = s.pipeState := rfl
@[simp] theorem afterEvent_fanState (s : State) : s.afterEvent.fanState = s.fanState := rfl
@[simp] theorem afterEvent_stopReq (s : State) : s.afterEvent.stopReq = s.stopReq := rfl
@[simp] theorem afterEvent_faultCause (s : State) : s.afterEvent.faultCause = s.faultCause := rfl
@[simp] theorem afterEvent_lastNow (s : State) : s.afterEvent.lastNow = s.lastNow := rfl
@[simp] theorem afterEvent_regs (s : State) : s.afterEvent.regs = s.regs := rfl
@[simp] theorem afterEvent_inq (s : State) : s.afterEvent.inq = s.inq := rfl
@[simp] theorem afterEvent_frameq (s : State) : s.afterEvent.frameq = s.frameq := rfl
@[simp] theorem afterEvent_subq (s : State) : s.afterEvent.subq = s.subq := rfl
@[simp] theorem afterEvent_connected (s : State) : s.afterEvent.connected = s.connected := rfl
@[simp] theorem afterEvent_env_pending (s : State) : s.afterEvent.env.pending = s.env.pending.tail := rfl
@[simp] theorem afterEvent_env_operand (s : State) : s.afterEvent.env.operand = s.env.operand := rfl
@[simp] theorem afterEvent_env_response (s : State) : s.afterEvent.env.response = s.env.response := rfl
@[simp] theorem afterEvent_env_clockIn (s : State) : s.afterEvent.env.clockIn = s.env.clockIn := rfl
@[simp] theorem afterEvent_env_tunerIn (s : State) : s.afterEvent.env.tunerIn = s.env.tunerIn := rfl
@[simp] theorem afterEvent_env_tunerLog (s : State) : s.afterEvent.env.tunerLog = s.env.tunerLog := rfl
@[simp] theorem afterEvent_env_draws (s : State) : s.afterEvent.env.draws = s.env.draws + 1 := rfl

/-! ### afterSample -/

@[simp] theorem afterSample_crc (s : State) : s.afterSample.crc = s.crc := rfl
@[simp] theorem afterSample_scan (s : State) : s.afterSample.scan = s.scan := rfl
@[simp] theorem afterSample_pipeState (s : State) : s.afterSample.pipeState = s.pipeState := rfl
@[simp] theorem afterSample_fanState (s : State) : s.afterSample.fanState = s.fanState := rfl
@[simp] theorem afterSample_stopReq (s : State) : s.afterSample.stopReq = s.stopReq := rfl
@[simp] theorem afterSample_faultCause (s : State) : s.afterSample.faultCause = s.faultCause := rfl
@[simp] theorem afterSample_lastNow (s : State) : s.afterSample.lastNow = s.clockSample := rfl
@[simp] theorem afterSample_regs (s : State) : s.afterSample.regs = s.regs := rfl
@[simp] theorem afterSample_inq (s : State) : s.afterSample.inq = s.inq := rfl
@[simp] theorem afterSample_frameq (s : State) : s.afterSample.frameq = s.frameq := rfl
@[simp] theorem afterSample_subq (s : State) : s.afterSample.subq = s.subq := rfl
@[simp] theorem afterSample_connected (s : State) : s.afterSample.connected = s.connected := rfl
@[simp] theorem afterSample_env_pending (s : State) : s.afterSample.env.pending = s.env.pending := rfl
@[simp] theorem afterSample_env_operand (s : State) : s.afterSample.env.operand = s.env.operand := rfl
@[simp] theorem afterSample_env_response (s : State) : s.afterSample.env.response = s.env.response := rfl
@[simp] theorem afterSample_env_clockIn (s : State) : s.afterSample.env.clockIn = s.env.clockIn.tail := rfl
@[simp] theorem afterSample_env_tunerIn (s : State) : s.afterSample.env.tunerIn = s.env.tunerIn := rfl
@[simp] theorem afterSample_env_tunerLog (s : State) : s.afterSample.env.tunerLog = s.env.tunerLog := rfl
@[simp] theorem afterSample_env_draws (s : State) : s.afterSample.env.draws = s.env.draws + 1 := rfl

/-! ### afterCall -/

@[simp] theorem afterCall_crc (s : State) (f : Word) : (s.afterCall f).crc = s.crc := rfl
@[simp] theorem afterCall_scan (s : State) (f : Word) : (s.afterCall f).scan = s.scan := rfl
@[simp] theorem afterCall_pipeState (s : State) (f : Word) : (s.afterCall f).pipeState = s.pipeState := rfl
@[simp] theorem afterCall_fanState (s : State) (f : Word) : (s.afterCall f).fanState = s.fanState := rfl
@[simp] theorem afterCall_stopReq (s : State) (f : Word) : (s.afterCall f).stopReq = s.stopReq := rfl
@[simp] theorem afterCall_faultCause (s : State) (f : Word) : (s.afterCall f).faultCause = s.faultCause := rfl
@[simp] theorem afterCall_lastNow (s : State) (f : Word) : (s.afterCall f).lastNow = s.lastNow := rfl
@[simp] theorem afterCall_regs (s : State) (f : Word) : (s.afterCall f).regs = s.regs := rfl
@[simp] theorem afterCall_inq (s : State) (f : Word) : (s.afterCall f).inq = s.inq := rfl
@[simp] theorem afterCall_frameq (s : State) (f : Word) : (s.afterCall f).frameq = s.frameq := rfl
@[simp] theorem afterCall_subq (s : State) (f : Word) : (s.afterCall f).subq = s.subq := rfl
@[simp] theorem afterCall_connected (s : State) (f : Word) : (s.afterCall f).connected = s.connected := rfl
@[simp] theorem afterCall_env_pending (s : State) (f : Word) : (s.afterCall f).env.pending = s.env.pending := rfl
@[simp] theorem afterCall_env_operand (s : State) (f : Word) : (s.afterCall f).env.operand = s.env.operand := rfl
@[simp] theorem afterCall_env_response (s : State) (f : Word) : (s.afterCall f).env.response = s.env.response := rfl
@[simp] theorem afterCall_env_clockIn (s : State) (f : Word) : (s.afterCall f).env.clockIn = s.env.clockIn := rfl
@[simp] theorem afterCall_env_tunerIn (s : State) (f : Word) : (s.afterCall f).env.tunerIn = s.env.tunerIn.tail := rfl
@[simp] theorem afterCall_env_tunerLog (s : State) (f : Word) : (s.afterCall f).env.tunerLog = s.env.tunerLog ++ [f] := rfl
@[simp] theorem afterCall_env_draws (s : State) (f : Word) : (s.afterCall f).env.draws = s.env.draws + 1 := rfl

/-! ### enterFaulted -/

@[simp] theorem enterFaulted_crc (s : State) : s.enterFaulted.crc = s.crc := rfl
@[simp] theorem enterFaulted_scan (s : State) : s.enterFaulted.scan = s.scan := rfl
@[simp] theorem enterFaulted_pipeState (s : State) : s.enterFaulted.pipeState = .faulted := rfl
@[simp] theorem enterFaulted_fanState (s : State) : s.enterFaulted.fanState = s.fanState := rfl
@[simp] theorem enterFaulted_stopReq (s : State) : s.enterFaulted.stopReq = s.stopReq := rfl
@[simp] theorem enterFaulted_faultCause (s : State) : s.enterFaulted.faultCause = .setFrequencyFailed := rfl
@[simp] theorem enterFaulted_lastNow (s : State) : s.enterFaulted.lastNow = s.lastNow := rfl
@[simp] theorem enterFaulted_regs (s : State) : s.enterFaulted.regs = s.regs := rfl
@[simp] theorem enterFaulted_inq (s : State) : s.enterFaulted.inq = s.inq := rfl
@[simp] theorem enterFaulted_frameq (s : State) : s.enterFaulted.frameq = s.frameq := rfl
@[simp] theorem enterFaulted_subq (s : State) : s.enterFaulted.subq = s.subq := rfl
@[simp] theorem enterFaulted_connected (s : State) : s.enterFaulted.connected = s.connected := rfl
@[simp] theorem enterFaulted_env (s : State) : s.enterFaulted.env = s.env := rfl

/-! ### pipeStop -/

@[simp] theorem pipeStop_crc (s : State) : s.pipeStop.crc = s.crc := rfl
@[simp] theorem pipeStop_scan (s : State) : s.pipeStop.scan = s.scan := rfl
@[simp] theorem pipeStop_pipeState (s : State) : s.pipeStop.pipeState = .stopped := rfl
@[simp] theorem pipeStop_fanState (s : State) : s.pipeStop.fanState = s.fanState := rfl
@[simp] theorem pipeStop_stopReq (s : State) : s.pipeStop.stopReq = s.stopReq := rfl
@[simp] theorem pipeStop_faultCause (s : State) : s.pipeStop.faultCause = s.faultCause := rfl
@[simp] theorem pipeStop_lastNow (s : State) : s.pipeStop.lastNow = s.lastNow := rfl
@[simp] theorem pipeStop_regs (s : State) : s.pipeStop.regs = s.regs := rfl
@[simp] theorem pipeStop_inq (s : State) : s.pipeStop.inq = s.inq := rfl
@[simp] theorem pipeStop_frameq (s : State) : s.pipeStop.frameq = s.frameq := rfl
@[simp] theorem pipeStop_subq (s : State) : s.pipeStop.subq = s.subq := rfl
@[simp] theorem pipeStop_connected (s : State) : s.pipeStop.connected = s.connected := rfl
@[simp] theorem pipeStop_env (s : State) : s.pipeStop.env = s.env := rfl

/-! ### fanStop -/

@[simp] theorem fanStop_crc (s : State) : s.fanStop.crc = s.crc := rfl
@[simp] theorem fanStop_scan (s : State) : s.fanStop.scan = s.scan := rfl
@[simp] theorem fanStop_pipeState (s : State) : s.fanStop.pipeState = s.pipeState := rfl
@[simp] theorem fanStop_fanState (s : State) : s.fanStop.fanState = .stopped := rfl
@[simp] theorem fanStop_stopReq (s : State) : s.fanStop.stopReq = s.stopReq := rfl
@[simp] theorem fanStop_faultCause (s : State) : s.fanStop.faultCause = s.faultCause := rfl
@[simp] theorem fanStop_lastNow (s : State) : s.fanStop.lastNow = s.lastNow := rfl
@[simp] theorem fanStop_regs (s : State) : s.fanStop.regs = s.regs := rfl
@[simp] theorem fanStop_inq (s : State) : s.fanStop.inq = s.inq := rfl
@[simp] theorem fanStop_frameq (s : State) : s.fanStop.frameq = s.frameq := rfl
@[simp] theorem fanStop_subq (s : State) : s.fanStop.subq = s.subq := rfl
@[simp] theorem fanStop_connected (s : State) : s.fanStop.connected = s.connected := rfl
@[simp] theorem fanStop_env (s : State) : s.fanStop.env = s.env := rfl

/-! ### startScan -/

@[simp] theorem startScan_crc (s : State) : s.startScan.crc = s.crc := rfl
@[simp] theorem startScan_scan (s : State) : s.startScan.scan = ⟨0, .sweeping, s.clockSample, s.regs.sweepValue⟩ := rfl
@[simp] theorem startScan_pipeState (s : State) : s.startScan.pipeState = s.pipeState := rfl
@[simp] theorem startScan_fanState (s : State) : s.startScan.fanState = s.fanState := rfl
@[simp] theorem startScan_stopReq (s : State) : s.startScan.stopReq = false := rfl
@[simp] theorem startScan_faultCause (s : State) : s.startScan.faultCause = s.faultCause := rfl
@[simp] theorem startScan_lastNow (s : State) : s.startScan.lastNow = s.clockSample := rfl
@[simp] theorem startScan_regs (s : State) : s.startScan.regs = s.regs := rfl
@[simp] theorem startScan_inq (s : State) : s.startScan.inq = s.inq := rfl
@[simp] theorem startScan_frameq (s : State) : s.startScan.frameq = s.frameq := rfl
@[simp] theorem startScan_subq (s : State) : s.startScan.subq = s.subq := rfl
@[simp] theorem startScan_connected (s : State) : s.startScan.connected = s.connected := rfl
@[simp] theorem startScan_env_pending (s : State) : s.startScan.env.pending = s.env.pending := rfl
@[simp] theorem startScan_env_operand (s : State) : s.startScan.env.operand = s.env.operand := rfl
@[simp] theorem startScan_env_response (s : State) : s.startScan.env.response = s.env.response := rfl
@[simp] theorem startScan_env_clockIn (s : State) : s.startScan.env.clockIn = s.env.clockIn.tail := rfl
@[simp] theorem startScan_env_tunerIn (s : State) : s.startScan.env.tunerIn = s.env.tunerIn := rfl
@[simp] theorem startScan_env_tunerLog (s : State) : s.startScan.env.tunerLog = s.env.tunerLog := rfl
@[simp] theorem startScan_env_draws (s : State) : s.startScan.env.draws = s.env.draws + 1 := rfl

/-! ### decodeSuccess -/

@[simp] theorem decodeSuccess_crc (s : State) (f : Frame) (now : Timestamp) : (s.decodeSuccess f now).crc = s.crc := rfl
@[simp] theorem decodeSuccess_scan (s : State) (f : Frame) (now : Timestamp) : (s.decodeSuccess f now).scan = ⟨s.scan.channelIndex, .locked, now, s.regs.lockedValue⟩ := rfl
@[simp] theorem decodeSuccess_pipeState (s : State) (f : Frame) (now : Timestamp) : (s.decodeSuccess f now).pipeState = s.pipeState := rfl
@[simp] theorem decodeSuccess_fanState (s : State) (f : Frame) (now : Timestamp) : (s.decodeSuccess f now).fanState = s.fanState := rfl
@[simp] theorem decodeSuccess_stopReq (s : State) (f : Frame) (now : Timestamp) : (s.decodeSuccess f now).stopReq = s.stopReq := rfl
@[simp] theorem decodeSuccess_faultCause (s : State) (f : Frame) (now : Timestamp) : (s.decodeSuccess f now).faultCause = s.faultCause := rfl
@[simp] theorem decodeSuccess_lastNow (s : State) (f : Frame) (now : Timestamp) : (s.decodeSuccess f now).lastNow = s.lastNow := rfl
@[simp] theorem decodeSuccess_regs (s : State) (f : Frame) (now : Timestamp) : (s.decodeSuccess f now).regs = s.regs := rfl
@[simp] theorem decodeSuccess_inq (s : State) (f : Frame) (now : Timestamp) : (s.decodeSuccess f now).inq = s.inq := rfl
@[simp] theorem decodeSuccess_frameq (s : State) (f : Frame) (now : Timestamp) : (s.decodeSuccess f now).frameq = s.frameq ++ [f] := rfl
@[simp] theorem decodeSuccess_subq (s : State) (f : Frame) (now : Timestamp) : (s.decodeSuccess f now).subq = s.subq := rfl
@[simp] theorem decodeSuccess_connected (s : State) (f : Frame) (now : Timestamp) : (s.decodeSuccess f now).connected = s.connected := rfl
@[simp] theorem decodeSuccess_env (s : State) (f : Frame) (now : Timestamp) : (s.decodeSuccess f now).env = s.env := rfl

/-! ### applyReset -/

@[simp] theorem applyReset_crc (s : State) : s.applyReset.crc = reset.crc := rfl
@[simp] theorem applyReset_scan (s : State) : s.applyReset.scan = reset.scan := rfl
@[simp] theorem applyReset_pipeState (s : State) : s.applyReset.pipeState = reset.pipeState := rfl
@[simp] theorem applyReset_fanState (s : State) : s.applyReset.fanState = reset.fanState := rfl
@[simp] theorem applyReset_stopReq (s : State) : s.applyReset.stopReq = reset.stopReq := rfl
@[simp] theorem applyReset_faultCause (s : State) : s.applyReset.faultCause = reset.faultCause := rfl
@[simp] theorem applyReset_lastNow (s : State) : s.applyReset.lastNow = reset.lastNow := rfl
@[simp] theorem applyReset_regs (s : State) : s.applyReset.regs = reset.regs := rfl
@[simp] theorem applyReset_inq (s : State) : s.applyReset.inq = reset.inq := rfl
@[simp] theorem applyReset_frameq (s : State) : s.applyReset.frameq = reset.frameq := rfl
@[simp] theorem applyReset_subq (s : State) : s.applyReset.subq = reset.subq := rfl
@[simp] theorem applyReset_connected (s : State) : s.applyReset.connected = reset.connected := rfl
@[simp] theorem applyReset_env (s : State) : s.applyReset.env = s.env := rfl

end Sys2Proof.Machine.State
end

