-- ==== Sys2Proof/Laws/Ops.lean ====
section
/-! SUPPORT. What each shared operation can do, said once. -/

namespace Sys2Proof.Machine

/-! ### This instance's parameters -/

/-- QUEUE_DEPTH is unbounded in this instance: a push is always enabled (R88). -/
@[simp] theorem hasRoom_eq_true (n : Nat) : hasRoom n = true := rfl

/-- MAX_CAND_BITS is unbounded in this instance (R89). -/
@[simp] theorem fitsCand_eq_true (b : Bits) : fitsCand b = true := rfl

@[simp] theorem params_maxSubs : Config.params.maxSubs = 16 := rfl

@[simp] theorem params_maxPayload : Config.params.maxPayload = 32 := rfl

@[simp] theorem params_acceptOverlongLength : Config.params.acceptOverlongLength = false := rfl

@[simp] theorem params_preamble_length : Config.params.preamble.length = 8 := rfl

/-- With MAX_SUBS = 16 every slot number is in range (R261). -/
@[simp] theorem not_maxSubs_le_slot (k : BitVec 4) : ¬ 16 ≤ k.toNat := by
  have := k.isLt
  omega

/-- Every delivery has room in this instance. -/
@[simp] theorem deliveryHasRoom_eq_true (s : State) : s.deliveryHasRoom = true := by
  simp [State.deliveryHasRoom]

/-! ### Responses -/

theorem complete_eq (s : State) (d : Data) : s.complete d = .next (s.respond .ok d) := rfl

theorem raise_eq (s : State) (e : Status) : s.raise e = .next (s.respond e .nothing) := rfl

/-- An answering command responds and writes nothing else. -/
theorem answer_cases (s : State) (r : Except Status Data) :
    (∃ d, r = .ok d ∧ s.answer r = .next (s.respond .ok d)) ∨
      ∃ e, r = .error e ∧ s.answer r = .next (s.respond e .nothing) := by
  cases r with
  | ok d => exact .inl ⟨d, rfl, rfl⟩
  | error e => exact .inr ⟨e, rfl, rfl⟩

/-! ### Operands -/

/-- A command that wants the empty operand runs on it and is IllegalCommand on any other. -/
theorem withEmpty_cases (s : State) (r : Result) :
    (s.env.operand = .empty ∧ s.withEmpty r = r) ∨
      (s.env.operand ≠ .empty ∧ s.withEmpty r = .next (s.respond .illegalCommand .nothing)) := by
  unfold State.withEmpty
  cases h : s.env.operand <;> simp [raise_eq]

/-- A command that wants a bit sequence runs on it and is IllegalCommand on any other operand. -/
theorem withBits_cases (s : State) (k : Bits → Result) :
    (∃ b, s.env.operand = .bits b ∧ s.withBits k = k b) ∨
      ((∀ b, s.env.operand ≠ .bits b) ∧ s.withBits k = .next (s.respond .illegalCommand .nothing)) := by
  unfold State.withBits
  cases h : s.env.operand <;> simp [raise_eq]

/-- A command that wants one word runs on it and is IllegalCommand on any other operand. -/
theorem withWord_cases (s : State) (k : Word → Result) :
    (∃ v, s.env.operand = .word v ∧ s.withWord k = k v) ∨
      ((∀ v, s.env.operand ≠ .word v) ∧ s.withWord k = .next (s.respond .illegalCommand .nothing)) := by
  unfold State.withWord
  cases h : s.env.operand <;> simp [raise_eq]

/-- ENCODE runs on three strings of the right lengths and is IllegalCommand on any other operand. -/
theorem withStrings_cases (s : State) (a l w : Nat) (k : List Byte → List Byte → List Byte → Result) :
    (∃ x y z, s.env.operand = .strings x y z ∧ x.length = a ∧ y.length = l ∧ z.length = w ∧
        s.withStrings a l w k = k x y z) ∨
      s.withStrings a l w k = .next (s.respond .illegalCommand .nothing) := by
  unfold State.withStrings
  cases h : s.env.operand with
  | strings x y z =>
    by_cases c : x.length = a ∧ y.length = l ∧ z.length = w
    · exact .inl ⟨x, y, z, rfl, c.1, c.2.1, c.2.2, by simp [c]⟩
    · exact .inr (by simp [c, raise_eq])
  | _ => exact .inr rfl

/-! ### The clock and the tuner -/

/-- The hop test as a comparison of numbers: a 32-bit timeout keeps its value at the timestamp width (R13, R224). -/
theorem expired_iff (c : ScanState) (now : Timestamp) :
    c.expired now = true ↔ c.activeTimeout.toNat < (now - c.lastSuccess).toNat := by
  have h : c.activeTimeout.toNat < 2 ^ Config.tsWidth := Nat.lt_trans c.activeTimeout.isLt (by decide)
  rw [ScanState.expired, decide_eq_true_iff, BitVec.lt_def, BitVec.toNat_setWidth, Nat.mod_eq_of_lt h]

/-- A sample is never below the last one (R30). -/
theorem lastNow_le_clockSample (s : State) : s.lastNow ≤ s.clockSample := by
  unfold State.clockSample
  dsimp only
  split
  · exact BitVec.le_refl _
  · rename_i h
    exact BitVec.not_lt.mp h

/-- The tuner call logs its frequency and faults the pipeline where it fails (R226). -/
theorem setFrequency_cases (s : State) (f : Word) :
    (s.tunerReturnsOk f = true ∧ s.setFrequency f = s.afterCall f) ∨
      (s.tunerReturnsOk f = false ∧ s.setFrequency f = (s.afterCall f).enterFaulted) := by
  unfold State.setFrequency
  cases h : s.tunerReturnsOk f <;> simp

/-- With a table in use the next channel lies in it (R224). -/
theorem nextChannel_lt (i n : BitVec 8) (h : n ≠ 0) : (nextChannel i n).toNat < n.toNat := by
  have hn : 0 < n.toNat := by
    rcases Nat.eq_zero_or_pos n.toNat with h0 | h0
    · exact absurd (BitVec.eq_of_toNat_eq (by simpa using h0)) h
    · exact h0
  have hm : (i.toNat + 1) % n.toNat < n.toNat := Nat.mod_lt _ hn
  have := n.isLt
  simp only [nextChannel, h, if_false, BitVec.toNat_ofNat]
  rwa [Nat.mod_eq_of_lt (by omega)]

/-- With a table in use the next channel is the successor modulo its length (R224). -/
theorem nextChannel_toNat (i n : BitVec 8) (h : n ≠ 0) :
    (nextChannel i n).toNat = (i.toNat + 1) % n.toNat := by
  have hn : 0 < n.toNat := Nat.lt_of_le_of_lt (Nat.zero_le _) (nextChannel_lt i n h)
  have hm : (i.toNat + 1) % n.toNat < n.toNat := Nat.mod_lt _ hn
  have := n.isLt
  simp only [nextChannel, h, if_false, BitVec.toNat_ofNat]
  rw [Nat.mod_eq_of_lt (by omega)]

/-! ### The configuration registers -/

/-- A write that succeeds is a write of an RW register, and changes that register alone. -/
theorem write_ok_cases (c d : Regs) (r : Reg) (v : Word) (h : c.write r v = .ok d) :
    (r = .addrLen ∧ 1 ≤ v.toNat ∧ v.toNat ≤ 15 ∧ d = { c with addrLen := v.setWidth 4 }) ∨
    (r = .crcLen ∧ (v.toNat = 1 ∨ v.toNat = 2) ∧ d = { c with crcLen := v.setWidth 2 }) ∨
    (r = .maxTries ∧ v.toNat ≤ 255 ∧ d = { c with maxTries := v.setWidth 8 }) ∨
    (r = .rawMode ∧ v.toNat ≤ 1 ∧ d = { c with rawMode := v.getLsbD 0 }) ∨
    (r = .lockedTimeout ∧ d = { c with lockedTimeout := some v }) ∨
    (r = .sweepTimeout ∧ d = { c with sweepTimeout := some v }) ∨
    (r = .pollInterval ∧ d = { c with pollInterval := v }) ∨
    (r = .chanCount ∧ v.toNat ≤ 240 ∧ d = { c with chanCount := v.setWidth 8 }) ∨
    ∃ i, r = .chanFreq i ∧ d = { c with chanFreq := c.chanFreq.setIfInBounds i (some v) } := by
  cases r <;> simp only [Regs.write, guardWrite] at h <;> (repeat' split at h) <;> simp_all

/-- A write that fails never fails with OK. -/
theorem write_error_ne_ok (c : Regs) (r : Reg) (v : Word) (e : Status) (h : c.write r v = .error e) : e ≠ .ok := by
  rintro rfl
  cases r <;> simp only [Regs.write, guardWrite] at h <;> (repeat' split at h) <;> simp_all

/-! ### The worker steps -/

/-- The timeout test hops or changes nothing (R224). -/
theorem timeoutEval_cases (s : State) (now : Timestamp) :
    (s.scan.expired now = true ∧ s.timeoutEval now = s.hop now) ∨
      (s.scan.expired now = false ∧ s.timeoutEval now = s) := by
  unfold State.timeoutEval
  cases h : s.scan.expired now <;> simp

/-- A success at `now` is not expired at `now` (R229). -/
theorem not_expired_self (c : ScanState) : c.expired c.lastSuccess = false := by
  simp [ScanState.expired, BitVec.lt_def]

/-- Everything a pipeline turn can do (R219 to R224). -/
theorem pipeTurn_cases (s : State) :
    (s.pipeState ≠ .running ∧ s.pipeTurn = s) ∨
    (s.pipeState = .running ∧ s.stopReq = true ∧ s.pipeTurn = s.pipeStop) ∨
    (s.Ticks ∧ s.inq = [] ∧ s.pipeTurn = s.afterSample.timeoutEval s.clockSample) ∨
    (s.Ticks ∧ ∃ b rest, s.inq = b :: rest ∧
      ((∃ f, s.regs.decodeCand b = .ok f ∧
          s.pipeTurn = ({ s.afterSample with inq := rest } : State).decodeSuccess f s.clockSample) ∨
       (∃ e, s.regs.decodeCand b = .error e ∧
          s.pipeTurn = ({ s.afterSample with inq := rest } : State).timeoutEval s.clockSample))) := by
  by_cases hr : s.pipeState = .running
  · cases hs : s.stopReq
    · cases hq : s.inq with
      | nil => right; right; left; simp [State.Ticks, State.pipeTurn, State.pipeTickIdle, hr, hs, hq]
      | cons b rest =>
        right; right; right
        refine ⟨⟨hr, hs⟩, b, rest, rfl, ?_⟩
        cases hd : s.regs.decodeCand b with
        | ok f =>
          refine .inl ⟨f, rfl, ?_⟩
          rcases timeoutEval_cases (({ s.afterSample with inq := rest } : State).decodeSuccess f s.clockSample)
            s.clockSample with ⟨h, _⟩ | ⟨_, h⟩
          · exact absurd h (by simp [ScanState.expired, BitVec.lt_def])
          · simpa [State.pipeTurn, State.pipeTickRx, hr, hs, hq, hd] using h
        | error e => exact .inr ⟨e, rfl, by simp [State.pipeTurn, State.pipeTickRx, hr, hs, hq, hd]⟩
    · right; left
      cases hq : s.inq <;> simp [State.pipeTurn, State.pipeTickRx, State.pipeTickIdle, hr, hs, hq]
  · left; simp [State.pipeTurn, hr]

/-- Everything a fan-out turn can do (R263, R264). -/
theorem fanTurn_cases (s : State) :
    (s.fanState ≠ .running ∧ s.fanTurn = s) ∨
    (s.fanState = .running ∧ s.stopReq = true ∧ s.fanTurn = s.fanStop) ∨
    (s.fanState = .running ∧ s.stopReq = false ∧ s.frameq = [] ∧ s.fanTurn = s) ∨
    (s.fanState = .running ∧ s.stopReq = false ∧ ∃ f rest, s.frameq = f :: rest ∧
      s.fanTurn = { s with frameq := rest, subq := s.deliver f }) := by
  by_cases hr : s.fanState = .running
  · cases hs : s.stopReq <;> cases hq : s.frameq <;>
      simp [State.fanTurn, State.fanDeliver, State.fanIdle, hr, hs, hq]
  · left; simp [State.fanTurn, hr]

/-- A delivery pushes the frame to every connected slot's queue and no other (R263). -/
@[simp] theorem deliver_getElem (s : State) (f : Frame) (k : Nat) (h : k < Config.slots) :
    (s.deliver f)[k] = if s.isConnected k then s.subq[k] ++ [f] else s.subq[k] := by
  simp [State.deliver]

/-! ### The commands and the step -/

/-- A word that decodes runs its command (R123). -/
theorem command_of_ok (s : State) (w : Word) (i : Instr) (h : decode w = .ok i) : s.command w = exec i s := by
  simp [State.command, h]

/-- A word that does not decode answers IllegalCommand (R120, R121). -/
theorem command_of_error (s : State) (w : Word) (e : Reject) (h : decode w = .error e) :
    s.command w = .next (s.respond .illegalCommand .nothing) := by
  simp [State.command, h, raise_eq]

/-- The reserved-bit check (R121). -/
theorem ifZero_cases (w : Word) (lo n : Nat) (i : Instr) :
    (field w lo n = 0 ∧ ifZero w lo n i = .ok i) ∨ (field w lo n ≠ 0 ∧ ifZero w lo n i = .error .reservedBits) := by
  unfold ifZero
  by_cases h : field w lo n = 0
  · exact .inl ⟨h, if_pos h⟩
  · exact .inr ⟨h, if_neg h⟩

/-- Everything a command that replaces the streaming register can do (R148, R149). -/
theorem storeCrc_cases (s : State) (r : Except Status CrcUnit) :
    (∃ u, r = .ok u ∧ s.storeCrc r = .next ({ s with crc := u }.respond .ok .nothing)) ∨
      ∃ e, r = .error e ∧ s.storeCrc r = .next (s.respond e .nothing) := by
  cases r with
  | ok u => exact .inl ⟨u, rfl, rfl⟩
  | error e => exact .inr ⟨e, rfl, rfl⟩

/-- Everything a POP with the empty operand can do (R262). -/
theorem execPop_cases (k : BitVec 4) (s : State) (h : s.env.operand = .empty) :
    (s.isConnected k.toNat = false ∧ execPop k s = .next (s.respond .invalidState .nothing)) ∨
    (s.isConnected k.toNat = true ∧ s.slotQueue k = [] ∧ execPop k s = .next (s.respond .queueEmpty .nothing)) ∨
    (s.isConnected k.toNat = true ∧ ∃ f rest, s.slotQueue k = f :: rest ∧
      execPop k s = .next ({ s with subq := s.subq.set k.toNat rest k.isLt }.respond .ok (.frame f))) := by
  cases hc : s.isConnected k.toNat <;> cases hq : s.slotQueue k <;>
    simp [execPop, State.withEmpty, h, hc, hq, raise_eq, complete_eq]

/-- Everything a CFG_WRITE can do (R212). -/
theorem execCfgWrite_cases (r : BitVec 8) (s t : State) (h : execCfgWrite r s = .next t) :
    (∃ v c, s.env.operand = .word v ∧ s.pipeState ≠ .running ∧ s.regs.write (Reg.ofNumber r) v = .ok c ∧
      t = { s with regs := c }.respond .ok .nothing) ∨
    ∃ e, e ≠ .ok ∧ t = s.respond e .nothing := by
  unfold execCfgWrite State.withWord at h
  split at h
  · rename_i v hv
    dsimp only at h
    split at h
    · exact .inr ⟨.illegalCommand, by simp, (Host.Outcome.next.inj h).symm⟩
    · split at h
      · exact .inr ⟨.invalidState, by simp, (Host.Outcome.next.inj h).symm⟩
      · rename_i hn
        split at h
        · rename_i c hc
          exact .inl ⟨v, c, hv, hn, hc, (Host.Outcome.next.inj h).symm⟩
        · rename_i e he
          exact .inr ⟨e, write_error_ne_ok _ _ _ _ he, (Host.Outcome.next.inj h).symm⟩
  · exact .inr ⟨.illegalCommand, by simp, (Host.Outcome.next.inj h).symm⟩

/-- Everything a START can do (R214). -/
theorem execStart_cases (s t : State) (h : execStart s = .next t) :
    (∃ e, (e = .illegalCommand ∨ e = .invalidState ∨ e = .configError) ∧ t = s.respond e .nothing) ∨
    (s.pipeState ≠ .running ∧ s.pipeState ≠ .faulted ∧ s.fanState ≠ .running ∧ s.regs.complete = true ∧
      ((s.startScan.tunerReturnsOk (s.regs.freqValue 0) = true ∧
          t = { s.startScan.afterCall (s.regs.freqValue 0) with
                pipeState := .running, fanState := .running }.respond .ok .nothing) ∨
       (s.startScan.tunerReturnsOk (s.regs.freqValue 0) = false ∧
          t = (s.startScan.afterCall (s.regs.freqValue 0)).enterFaulted.respond .setFrequencyFailed .nothing))) := by
  unfold execStart State.withEmpty at h
  split at h
  · split at h
    · exact .inl ⟨.invalidState, by simp, (Host.Outcome.next.inj h).symm⟩
    · rename_i hw
      simp only [not_or] at hw
      split at h
      · exact .inl ⟨.configError, by simp, (Host.Outcome.next.inj h).symm⟩
      · rename_i hc
        refine .inr ⟨hw.1, hw.2.1, hw.2.2, by simpa using hc, ?_⟩
        dsimp only at h
        split at h
        · rename_i ht
          exact .inl ⟨ht, (Host.Outcome.next.inj h).symm⟩
        · rename_i ht
          exact .inr ⟨by simpa using ht, (Host.Outcome.next.inj h).symm⟩
  · exact .inl ⟨.illegalCommand, by simp, (Host.Outcome.next.inj h).symm⟩

/-- The step, by the next event. -/
theorem step_cases (s t : State) (h : step s = .next t) :
    (∃ w d, s.nextEvent = .command w d ∧
      ((∃ i, decode w = .ok i ∧ exec i (s.afterEvent.present d) = .next t) ∨
        (∃ e, decode w = .error e ∧ t = (s.afterEvent.present d).respond .illegalCommand .nothing))) ∨
    (s.nextEvent = .pipeTurn ∧ t = s.afterEvent.pipeTurn) ∨
    (s.nextEvent = .fanTurn ∧ t = s.afterEvent.fanTurn) ∨
    (s.nextEvent = .reset ∧ t = s.afterEvent.applyReset) := by
  unfold step at h
  split at h
  · rename_i w d he
    left
    refine ⟨w, d, he, ?_⟩
    unfold State.command at h
    split at h
    · rename_i i hi; exact .inl ⟨i, hi, h⟩
    · rename_i e hi; exact .inr ⟨e, hi, (Host.Outcome.next.inj h).symm⟩
  · rename_i he; simp_all
  · rename_i he; simp_all
  · rename_i he; simp_all

end Sys2Proof.Machine
end

