-- ==== Sys2Proof/Laws/Pseudo.lean ====
section
/-! SUPPORT. What the pseudo-instruction ENCODE_AUTO can do (R128, R193). -/

namespace Sys2Proof.Machine

/-- A checksum fits its width: as a response word it keeps its value (R118). -/
theorem crcOf_lt (c : Nat) (s : Bits) (v : Nat) (h : crcOf c s = .ok v) : v < 2 ^ 32 := by
  rcases crcOf_cases c s with ⟨_, e⟩ | ⟨_, e⟩ | ⟨_, _, e⟩ <;> rw [e] at h <;> cases h
  · exact Nat.lt_trans (crc8 s).isLt (by decide)
  · exact Nat.lt_trans (crc16 s).isLt (by decide)

/-- With w = 1 or 2 the CRC command of ENCODE_AUTO answers the checksum of its sequence (R145, R146). -/
theorem issue_crcSeq (w : BitVec 2) (b : Bits) (s : State) (hw : w = 1 ∨ w = 2) :
    ∃ v, crcOf w.toNat b = .ok v ∧
      issue (crcSeq w) (.bits b) s = .next ((s.present (.bits b)).respond .ok (.word (BitVec.ofNat 32 v))) := by
  rcases hw with rfl | rfl
  · refine ⟨(crc8 b).toNat, rfl, ?_⟩
    rw [show BitVec.ofNat 32 (crc8 b).toNat = (crc8 b).setWidth 32 from BitVec.eq_of_toNat_eq (by simp)]
    rfl
  · refine ⟨(crc16 b).toNat, rfl, ?_⟩
    rw [show BitVec.ofNat 32 (crc16 b).toNat = (crc16 b).setWidth 32 from BitVec.eq_of_toNat_eq (by simp)]
    rfl

/-- ENCODE_AUTO with w = 1 or 2 is its ENCODE with the checksum's bytes, after its CRC command (R193). -/
theorem encodeAuto_eq_issue_encode (w : BitVec 2) (a : BitVec 4) (pid8 : BitVec 8) (noack : Bool)
    (addr payload : List Byte) (s : State) (hw : w = 1 ∨ w = 2) :
    ∃ v t, crcOf w.toNat (headerBits addr payload payload.length pid8.toNat noack) = .ok v ∧
      encodeAuto w a pid8 noack addr payload s =
        issue (.encode w a noack pid8 (BitVec.ofNat 8 payload.length)) (.strings addr payload (beBytes w.toNat v)) t := by
  obtain ⟨v, hv, h⟩ := issue_crcSeq w (headerBits addr payload payload.length pid8.toNat noack) s hw
  refine ⟨v, (s.present (.bits (headerBits addr payload payload.length pid8.toNat noack))).respond .ok
    (.word (BitVec.ofNat 32 v)), hv, ?_⟩
  have hn : (BitVec.ofNat 32 v).toNat = v := by
    rw [BitVec.toNat_ofNat, Nat.mod_eq_of_lt (crcOf_lt _ _ _ hv)]
  simp only [encodeAuto, andThen, h, State.answeredCrc, State.respond_env_response, hn]

/-- ENCODE_AUTO with w = 0 or 3 ends at its CRC command (R147). -/
theorem encodeAuto_unsupported (w : BitVec 2) (a : BitVec 4) (pid8 : BitVec 8) (noack : Bool)
    (addr payload : List Byte) (s : State) (hw : w = 0 ∨ w = 3) :
    ∃ t, encodeAuto w a pid8 noack addr payload s = .next t ∧
      t.env.response = some ⟨.unsupportedCrcLength, .nothing⟩ := by
  rcases hw with rfl | rfl <;> exact ⟨_, rfl, rfl⟩

/-- ENCODE with every field in range answers the frame bits (R171). -/
theorem issue_encode_of_range (w : BitVec 2) (a : BitVec 4) (noack : Bool) (pid8 len8 : BitVec 8)
    (addr payload crcb : List Byte) (s : State) (hw : w = 1 ∨ w = 2) (ha : a ≠ 0) (hl : addr.length = a.toNat)
    (hp : payload.length = len8.toNat) (hc : crcb.length = w.toNat) (h32 : len8.toNat ≤ 32) (h3 : pid8.toNat ≤ 3) :
    issue (.encode w a noack pid8 len8) (.strings addr payload crcb) s =
      .next ((s.present (.strings addr payload crcb)).respond .ok
        (.bits (headerBits addr payload len8.toNat pid8.toNat noack ++ bytesToBits crcb))) := by
  have hw' : ¬(w.toNat ≠ 1 ∧ w.toNat ≠ 2) := by rcases hw with rfl | rfl <;> simp
  have he : encodeFrame addr payload crcb pid8.toNat len8.toNat w.toNat noack =
      .ok (headerBits addr payload len8.toNat pid8.toNat noack ++ bytesToBits crcb) := by
    unfold encodeFrame
    rw [if_neg (by simpa using h32), if_neg (by omega), if_neg hw']
  simp only [issue, exec, execEncode, State.withStrings, State.present_env_operand, hl, hp, hc, and_self, if_true]
  rw [if_neg ha, he]
  rfl

end Sys2Proof.Machine
end

