-- ==== Sys2Proof/Tests/Slice0.lean ====
section
/-! SUPPORT. Tests of one step each, with values from spec/95_test_vectors.md and the examples of the rules, and for every
statement with hypotheses a witness that meets them. -/

namespace Sys2Proof.Tests

open Sys2Proof.Machine

set_option Elab.async false

/-! ### Helpers -/

/-- A sequence of `n` bits written as one numeral, index 0 first. -/
def seq (n v : Nat) : Bits := bitsOf n v

/-- The 153-bit fixture FIX of 95_test_vectors.md. -/
def fix : Bits := seq 153 0b010101010100111111101100100100000010100000001101001010100000000001100001000000000000000001111111111001111111111110000000000000000011100011000010110101100

/-- The fields of FIX, 95_test_vectors.md L1-2. -/
def fixAddr : List Byte := [0x4F, 0xEC, 0x90, 0x28, 0x0D]

def fixPayload : List Byte := [0x00, 0xC2, 0x00, 0x00, 0xFF, 0xCF, 0xFF, 0x00, 0x00, 0x71]

def fixFrame : Frame := ⟨fixAddr, 10, fixPayload, 2, false, [0x85, 0xAC]⟩

/-- A complete configuration of three channels: sweep timeout 1 s, locked timeout 5 s. -/
def configured : State :=
  { State.reset with
    regs := { State.reset.regs with
      lockedTimeout := some 5000000
      sweepTimeout := some 1000000
      chanCount := 3
      chanFreq := ((State.reset.regs.chanFreq.set 0 (some 2402)).set 1 (some 2403)).set 2 (some 2404) } }

/-- The same with the agents' next answers. -/
def configuredWith (clock : List Timestamp) (tuner : List Bool) : State :=
  { configured with env := { configured.env with clockIn := clock, tunerIn := tuner } }

/-- Running and Sweeping on channel 0 since time 0, with candidates waiting. -/
def running (inq : List Bits) (clock : List Timestamp) (tuner : List Bool) : State :=
  { configuredWith clock tuner with
    pipeState := .running
    fanState := .running
    scan := ⟨0, .sweeping, 0, 1000000⟩
    inq := inq }

/-- Slot 0 connected, with frames in the frame queue. -/
def delivering (frames : List Frame) : State := { running [] [] [] with connected := 1, frameq := frames }

/-- The same state with an agent's step next. -/
def next (e : Event) (s : State) : State := { s with env := { s.env with pending := [e] } }

/-- The response of a command. -/
def answer : Result → Option Response
  | .next t => t.env.response
  | .fault _ => none
  | .refused _ => none

/-- A view of the state after a step. -/
def after (r : Result) (view : State → α) : Option α :=
  match r with
  | .next t => some (view t)
  | .fault _ => none
  | .refused _ => none

/-! ### WellFormed (R122) -/

theorem test_encode_zero_address_ill_formed : Instr.wellFormed (.encode 2 0 false 0 0) = false := by decide

theorem test_decode_zero_address_ill_formed : Instr.wellFormed (.decode 2 0 true 8) = false := by decide

theorem test_encode_well_formed : Instr.wellFormed (.encode 0 15 true 255 255) = true := by decide

/-! ### Decode: every word written out from the fields of its format (R109 to R116) -/

theorem test_decode_word_crcSeqW0 : decode (0x1#4 ++ 0#2 ++ 0#26) = .ok (.crcSeqW0) := by decide

theorem test_decode_word_crc8 : decode (0x1#4 ++ 1#2 ++ 0#26) = .ok (.crc8) := by decide

theorem test_decode_word_crc16 : decode (0x1#4 ++ 2#2 ++ 0#26) = .ok (.crc16) := by decide

theorem test_decode_word_crcSeqW3 : decode (0x1#4 ++ 3#2 ++ 0#26) = .ok (.crcSeqW3) := by decide

theorem test_decode_word_crcInit : decode (0x2#4 ++ 2#2 ++ 0#26) = .ok (.crcInit 2) := by decide

theorem test_decode_word_crcShift : decode (0x3#4 ++ 0#27 ++ 1#1) = .ok (.crcShift true) := by decide

theorem test_decode_word_crcRead : decode (0x4#4 ++ 0#28) = .ok (.crcRead) := by decide

theorem test_decode_word_encode :
    decode (0x5#4 ++ 2#2 ++ 5#4 ++ 1#1 ++ 0x83#8 ++ 0x41#8 ++ 0#5) = .ok (.encode 2 5 true 0x83 0x41) := by decide

theorem test_decode_word_decode :
    decode (0x6#4 ++ 1#2 ++ 9#4 ++ 1#1 ++ 0x87#8 ++ 0#13) = .ok (.decode 1 9 true 0x87) := by decide

theorem test_decode_word_cfgRead : decode (0x7#4 ++ 0x81#8 ++ 0#20) = .ok (.cfgRead 0x81) := by decide

theorem test_decode_word_cfgWrite : decode (0x8#4 ++ 0x06#8 ++ 0#20) = .ok (.cfgWrite 6) := by decide

theorem test_decode_word_start : decode (0x9#4 ++ 0#28) = .ok (.start) := by decide

theorem test_decode_word_stop : decode (0xA#4 ++ 0#28) = .ok (.stop) := by decide

theorem test_decode_word_pushCand : decode (0xB#4 ++ 0#28) = .ok (.pushCand) := by decide

theorem test_decode_word_connect : decode (0xC#4 ++ 9#4 ++ 0#24) = .ok (.connect 9) := by decide

theorem test_decode_word_pop : decode (0xD#4 ++ 14#4 ++ 0#24) = .ok (.pop 14) := by decide

theorem test_reserved_opcodes :
    decode (0x0#4 ++ 0#28) = .error .reservedOpcode ∧ decode (0xE#4 ++ 0#28) = .error .reservedOpcode ∧
      decode (0xF#4 ++ 0#28) = .error .reservedOpcode := by decide

/-- The lowest or the highest reserved bit of each format. -/
theorem test_reserved_bits :
    ([0x14000001, 0x12000000, 0x20000001, 0x30000002, 0x38000000, 0x40000001, 0x48000000, 0x50000010, 0x60001000,
        0x70080000, 0x80000001, 0x90000001, 0xA8000000, 0xB0000001, 0xC0800000, 0xD0000001] : List Word).all
      (fun w => decode w == .error .reservedBits) = true := by decide +kernel

/-! ### CRC unit -/

theorem test_crc8_one_bit :
    answer (execCrc8 (State.reset.present (.bits [true]))) = some ⟨.ok, .word 0xFE⟩ := by decide +kernel

theorem test_crc8_digits :
    crc8 (bytesToBits [0x31, 0x32, 0x33, 0x34, 0x35, 0x36, 0x37, 0x38, 0x39]) = 0xFB := by decide +kernel

theorem test_crc16_fixture :
    answer (execCrc16 (State.reset.present (.bits (slice fix 8 129)))) = some ⟨.ok, .word 0x85AC⟩ := by decide +kernel

theorem test_crc16_byte : crc16 (seq 8 0x4F) = 0x58DB := by decide +kernel

theorem test_crcSeqW0 :
    answer (execCrcSeqW0 (State.reset.present (.bits [true]))) = some ⟨.unsupportedCrcLength, .nothing⟩ :=
  by decide +kernel

theorem test_crcSeqW3 :
    answer (execCrcSeqW3 (State.reset.present (.bits []))) = some ⟨.unsupportedCrcLength, .nothing⟩ :=
  by decide +kernel

theorem test_crcInit_state :
    after (execCrcInit 1 State.reset) State.crcStateWord = some 0x000100FF := by decide +kernel

theorem test_crcInit_unsupported :
    answer (execCrcInit 0 State.reset) = some ⟨.unsupportedCrcLength, .nothing⟩ := by decide +kernel

theorem test_crcShift_unconfigured :
    answer (execCrcShift true State.reset) = some ⟨.invalidState, .nothing⟩ := by decide +kernel

theorem test_crcShift_half :
    after (execCrcShift true { State.reset with crc := ⟨0xFFFF, .half⟩ }) State.crcStateWord = some 0x0002FFFE :=
  by decide +kernel

theorem test_crcRead_unconfigured :
    answer (execCrcRead State.reset) = some ⟨.invalidState, .nothing⟩ := by decide +kernel

theorem test_crcRead_half :
    answer (execCrcRead { State.reset with crc := ⟨0xFFFE, .half⟩ }) = some ⟨.ok, .word 0xFFFE⟩ := by decide +kernel

/-! ### Frame codec -/

/-- 95_test_vectors.md L2-E1. -/
theorem test_encode_fixture :
    answer (execEncode 2 5 false 2 10 (State.reset.present (.strings fixAddr fixPayload [0x85, 0xAC]))) =
      some ⟨.ok, .bits (slice fix 8 145)⟩ := by decide +kernel

/-- 95_test_vectors.md L2-E7. -/
theorem test_encode_payload_first : answer (execEncode 2 5 false 4 33 (State.reset.present
      (.strings fixAddr (List.replicate 33 0) [0, 0]))) = some ⟨.invalidPayload, .nothing⟩ := by decide +kernel

/-- 95_test_vectors.md L1-2. -/
theorem test_decode_fixture :
    answer (execDecode 2 5 true 8 (State.reset.present (.bits fix))) = some ⟨.ok, .frame fixFrame⟩ :=
  by decide +kernel

theorem test_decode_no_tries :
    answer (execDecode 2 5 true 0 (State.reset.present (.bits fix))) = some ⟨.noValidFrame, .nothing⟩ :=
  by decide +kernel

/-- 95_test_vectors.md L2-E1, by ENCODE_AUTO. -/
theorem test_encodeAuto_fixture :
    answer (encodeAuto 2 5 2 false fixAddr fixPayload State.reset) = some ⟨.ok, .bits (slice fix 8 145)⟩ :=
  by decide +kernel

theorem test_encodeAuto_zero_address :
    answer (encodeAuto 2 0 0 false [] [] State.reset) = some ⟨.illegalCommand, .nothing⟩ := by decide +kernel

/-! ### Configuration and start -/

theorem test_cfgRead_addrLen : answer (execCfgRead 0x01 State.reset) = some ⟨.ok, .word 5⟩ := by decide +kernel

theorem test_cfgRead_unwritten :
    answer (execCfgRead 0x05 State.reset) = some ⟨.invalidState, .nothing⟩ := by decide +kernel

theorem test_cfgWrite_sweep :
    after (execCfgWrite 0x06 (State.reset.present (.word 1000000))) (fun t => t.regs.sweepTimeout) =
      some (some 1000000) := by decide +kernel

theorem test_cfgWrite_while_running :
    answer (execCfgWrite 0x06 ((running [] [] []).present (.word 1))) = some ⟨.invalidState, .nothing⟩ :=
  by decide +kernel

theorem test_start_status :
    after (execStart (configuredWith [0] [true])) (fun t => (t.statusWord, t.env.tunerLog)) = some (0x00000005, [2402]) :=
  by decide +kernel

theorem test_start_fault :
    after (execStart (configuredWith [7] [false])) (fun t => (t.statusWord, t.faultCauseWord)) = some (3, 5) :=
  by decide +kernel

theorem test_stop_status : after (execStop (running [] [] [])) State.statusWord = some 0x00000015 := by decide +kernel

theorem test_pushCand_order :
    after (execPushCand ((running [[true]] [] []).present (.bits [false]))) (fun t => t.inq) =
      some [[true], [false]] := by decide +kernel

/-! ### The workers, the subscribers and RESET -/

/-- Example of R221: no hop at equality. -/
theorem test_idle_tick_at_timeout :
    ((running [] [1000000] []).pipeTurn.scan, (running [] [1000000] []).pipeTurn.env.tunerLog) =
      (⟨0, .sweeping, 0, 1000000⟩, []) := by decide +kernel

/-- Example of R221: the hop just past it. -/
theorem test_idle_tick_past_timeout :
    ((running [] [1000001] [true]).pipeTurn.scan, (running [] [1000001] [true]).pipeTurn.env.tunerLog) =
      (⟨1, .sweeping, 1000001, 1000000⟩, [2403]) := by decide +kernel

/-- Example of R220. -/
theorem test_tick_fixture :
    ((running [fix] [2000000] []).pipeTurn.scan, (running [fix] [2000000] []).pipeTurn.frameq) =
      (⟨0, .locked, 2000000, 5000000⟩, [fixFrame]) := by decide +kernel

/-- Example of R263. -/
theorem test_fanDeliver : ((delivering [fixFrame]).fanTurn.slotQueue 0, (delivering [fixFrame]).fanTurn.slotQueue 1) =
      ([fixFrame], []) := by decide +kernel

theorem test_connect_mask : after (execConnect 3 State.reset) State.subsMask = some 8 := by decide +kernel

theorem test_connect_again :
    after (execConnect 3 { State.reset with connected := 8 }) State.subsMask = some 8 := by decide +kernel

theorem test_pop_frame :
    answer (execPop 0 (delivering [fixFrame]).fanTurn) = some ⟨.ok, .frame fixFrame⟩ := by decide +kernel

theorem test_pop_empty : answer (execPop 0 (delivering [])) = some ⟨.queueEmpty, .nothing⟩ := by decide +kernel

theorem test_reset_leaves_faulted :
    after (step (next .reset { running [] [] [] with pipeState := .faulted })) State.statusWord = some 0 :=
  by decide +kernel

theorem test_step_runs_fetched_word :
    after (step (State.reset.withFetchWord 32 0x28000000)) State.crcStateWord = some 0x0002FFFF := by decide +kernel

/-! ### Witnesses: a state and operands that meet the hypotheses of each statement -/

theorem witness_EncodeInvertsDecode : decode 0x69610000 = .ok (.decode 2 5 true 8) := by decide +kernel

theorem witness_ReservedOpcodesAnswerIllegal :
    field 0x00000000 28 4 = 0x0 ∧ field 0xEFFFFFFF 28 4 = 0xE ∧ field 0xF0000000 28 4 = 0xF := by decide +kernel

theorem witness_StepRunsDecodedCommand_commands :
    (next (.command 0x14000000 (.bits [true])) State.reset).env.pending = .command 0x14000000 (.bits [true]) :: [] ∧
      decode 0x14000000 = .ok .crc8 ∧
      (next (.command 0x14000001 (.bits [true])) State.reset).env.pending = .command 0x14000001 (.bits [true]) :: [] ∧
      decode 0x14000001 = .error .reservedBits := by decide +kernel

theorem witness_StepRunsDecodedCommand_turns :
    (next .pipeTurn (running [] [1000001] [true])).env.pending = .pipeTurn :: [] ∧
      (next .fanTurn (delivering [fixFrame])).env.pending = .fanTurn :: [] := by decide +kernel

theorem witness_WrongOperandAnswersIllegal :
    operandFits .crc8 .empty = false ∧ operandFits .start (.bits []) = false ∧
      operandFits (.encode 2 5 false 2 10) (.strings fixAddr (fixPayload.drop 1) [0x85, 0xAC]) = false :=
  by decide +kernel

theorem witness_Crc8Command :
    (State.reset.present (.bits [])).env.operand = .bits [] ∧ (∀ b, State.reset.env.operand ≠ .bits b) ∧
      field 0x14000001 28 4 = 1 ∧ field 0x14000001 0 26 ≠ 0 := ⟨rfl, fun _ h => (nomatch h), by decide, by decide⟩

theorem witness_Crc16Command :
    (State.reset.present (.bits fix)).env.operand = .bits fix ∧ (∀ b, State.reset.env.operand ≠ .bits b) ∧
      field 0x1A000000 28 4 = 1 ∧ field 0x1A000000 0 26 ≠ 0 := ⟨rfl, fun _ h => (nomatch h), by decide, by decide⟩

theorem witness_CrcSeqUnsupportedLength : (State.reset.present (.bits [])).env.operand = .bits [] ∧
      field 0x1C000001 28 4 = 1 ∧ field 0x1C000001 0 26 ≠ 0 := by decide +kernel

theorem witness_CrcInitCommand :
    State.reset.env.operand = .empty ∧ field 0x24000001 28 4 = 2 ∧ field 0x24000001 0 26 ≠ 0 ∧
      (∃ t, exec (.crcInit 0) State.reset = .next t) ∧ ∃ t, issue (.crcInit 2) .empty State.reset = .next t :=
  ⟨rfl, by decide, by decide, ⟨_, rfl⟩, _, rfl⟩

theorem witness_CrcShiftCommand :
    State.reset.env.operand = .empty ∧ State.reset.crc.width = .unconfigured ∧
      ({ State.reset with crc := ⟨0xFF, .byte⟩ } : State).crc.width = .byte ∧
      ({ State.reset with crc := ⟨0xFFFF, .half⟩ } : State).crc.width = .half ∧
      field 0x30000002 28 4 = 3 ∧ field 0x30000002 1 27 ≠ 0 ∧
      ∃ t, runCommands [(.crcInit 1, .empty), (.crcShift false, .empty)] State.reset = .next t :=
  ⟨rfl, rfl, rfl, rfl, by decide, by decide, _, rfl⟩

theorem witness_CrcReadCommand : State.reset.env.operand = .empty ∧ State.reset.crc.width = .unconfigured ∧
      ({ State.reset with crc := ⟨0xFF, .byte⟩ } : State).crc.width = .byte ∧
      ({ State.reset with crc := ⟨0xFFFF, .half⟩ } : State).crc.width = .half ∧
      field 0x40000001 28 4 = 4 ∧ field 0x40000001 0 28 ≠ 0 := ⟨rfl, rfl, rfl, rfl, by decide, by decide⟩

theorem witness_CandidateAcceptance :
    tryCandidate false fix 5 2 0 = .ok (some fixFrame) ∧ tryCandidate false fix 5 2 2 = .ok none := by decide +kernel

theorem witness_CrcDetectsSingleBitChanges :
    ([true] : Bits).length = ([false] : Bits).length ∧ 0 < ([true] : Bits).length := by decide +kernel

theorem witness_EncodeAnswersFrameBits :
    (State.reset.present (.strings [1] (List.replicate 32 0) [0, 0])).env.operand =
        .strings [1] (List.replicate 32 0) [0, 0] ∧
      ([1] : List Byte).length = (1 : BitVec 4).toNat ∧ (List.replicate 32 (0 : Byte)).length = (32 : BitVec 8).toNat ∧
      ([0, 0] : List Byte).length = (2 : BitVec 2).toNat ∧ (1 : BitVec 4) ≠ 0 ∧ (32 : BitVec 8).toNat ≤ 32 ∧
      (3 : BitVec 8).toNat ≤ 3 ∧ ((2 : BitVec 2) = 1 ∨ (2 : BitVec 2) = 2) :=
  by decide +kernel

theorem witness_EncodeErrorOrder :
    (State.reset.present (.strings [1] (List.replicate 33 0) [])).env.operand =
        .strings [1] (List.replicate 33 0) [] ∧
      ([1] : List Byte).length = (1 : BitVec 4).toNat ∧ (List.replicate 33 (0 : Byte)).length = (33 : BitVec 8).toNat ∧
      ([] : List Byte).length = (0 : BitVec 2).toNat ∧ (1 : BitVec 4) ≠ 0 ∧ 32 < (33 : BitVec 8).toNat :=
  by decide +kernel

theorem witness_EncodeErrorOrder_later :
    (State.reset.present (.strings [1] (List.replicate 32 0) [])).env.operand =
        .strings [1] (List.replicate 32 0) [] ∧
      ([1] : List Byte).length = (1 : BitVec 4).toNat ∧ (List.replicate 32 (0 : Byte)).length = (32 : BitVec 8).toNat ∧
      ([] : List Byte).length = (0 : BitVec 2).toNat ∧ (1 : BitVec 4) ≠ 0 ∧ (32 : BitVec 8).toNat ≤ 32 ∧
      3 < (4 : BitVec 8).toNat ∧ (3 : BitVec 8).toNat ≤ 3 ∧ ((0 : BitVec 2) = 0 ∨ (0 : BitVec 2) = 3) :=
  by decide +kernel

theorem witness_FrameLayout : fixPayload.length = 10 ∧ ([0x85, 0xAC] : List Byte).length = 2 ∧
      encodeFrame fixAddr fixPayload [0x85, 0xAC] 2 10 2 false = .ok (slice fix 8 145) := by decide +kernel

theorem witness_UnsupportedLengthIsLazy :
    (0 : Nat) ≠ 1 ∧ (0 : Nat) ≠ 2 ∧ decodeFrame fix 5 0 true 8 = .error .unsupportedCrcLength ∧
      decodeFrame [] 5 3 true 8 = .error .noValidFrame := by decide +kernel

theorem witness_DecodedFrameLengths : decodeFrame fix 5 2 true 8 = .ok fixFrame := by decide +kernel

theorem witness_DecodeAnswersFrame :
    (State.reset.present (.bits fix)).env.operand = .bits fix ∧ (5 : BitVec 4) ≠ 0 ∧
      decodeFrame fix (5 : BitVec 4).toNat (2 : BitVec 2).toNat true (8 : BitVec 8).toNat = .ok fixFrame ∧
      decodeFrame fix (5 : BitVec 4).toNat (2 : BitVec 2).toNat true (0 : BitVec 8).toNat = .error .noValidFrame :=
  by decide +kernel

theorem witness_OutsideBitsAreNotRead : (fix.take 8).length = 8 ∧ (List.replicate 8 false).length = 8 ∧
      decodeFrame (fix.take 8 ++ fix.drop 8) 5 2 false 0 = .ok fixFrame := by decide +kernel

theorem witness_FrameRoundTrip : ((2 : BitVec 2) = 1 ∨ (2 : BitVec 2) = 2) ∧ (15 : BitVec 4) ≠ 0 ∧
      (List.replicate 15 (0 : Byte)).length = (15 : BitVec 4).toNat ∧ (List.replicate 32 (0 : Byte)).length ≤ 32 ∧
      (3 : BitVec 8).toNat ≤ 3 := by decide +kernel

/-- The first payload bit and the last CRC bit. -/
theorem witness_CorruptionIsDetected :
    ((2 : BitVec 2) = 1 ∨ (2 : BitVec 2) = 2) ∧ (5 : BitVec 4) ≠ 0 ∧ fixAddr.length = (5 : BitVec 4).toNat ∧
      fixPayload.length ≤ 32 ∧ (2 : BitVec 8).toNat ≤ 3 ∧
      (∃ t, encodeAuto 2 5 2 false fixAddr fixPayload State.reset = .next t ∧
        t.env.response = some ⟨.ok, .bits (slice fix 8 145)⟩) ∧
      49 < (slice fix 8 145).length ∧ 8 * (5 : BitVec 4).toNat + 9 ≤ 49 ∧ 144 < (slice fix 8 145).length ∧
      8 * (5 : BitVec 4).toNat + 9 ≤ 144 :=
  ⟨by decide, by decide, by decide, by decide, by decide, ⟨_, rfl, by decide +kernel⟩, by decide +kernel, by decide,
    by decide +kernel, by decide⟩

theorem witness_CfgReadAnswersRegister :
    State.reset.env.operand = .empty ∧ (0 : Nat) < 240 ∧ (239 : Nat) < 240 := by decide +kernel

theorem witness_CfgWriteStoresLegalValue :
    (State.reset.present (.word 15)).env.operand = .word 15 ∧ (State.reset.present (.word 15)).pipeState ≠ .running ∧
      (0 : Nat) < 240 ∧ (239 : Nat) < 240 := by decide +kernel

theorem witness_CfgWriteAccess :
    ((running [] [] []).present (.word 1)).env.operand = .word 1 ∧ 0x09 ≤ (0x09 : BitVec 8).toNat ∧
      (0x0F : BitVec 8).toNat ≤ 0x0F ∧
      ¬((0x10 : BitVec 8) = 0x00 ∨ (0x09 ≤ (0x10 : BitVec 8).toNat ∧ (0x10 : BitVec 8).toNat ≤ 0x0F)) ∧
      ((running [] [] []).present (.word 1)).pipeState = .running := by decide +kernel

theorem witness_CfgReadAfterWrite :
    ∃ t, issue (.cfgWrite 0xFF) (.word 7) State.reset = .next t ∧ t.env.response = some ⟨.ok, .nothing⟩ :=
  ⟨_, rfl, rfl⟩

theorem witness_ConfigurationFixedWhileRunning :
    (next .pipeTurn (running [] [0] [])).pipeState = .running ∧ (next .pipeTurn (running [] [0] [])).nextEvent ≠ .reset ∧
      ∃ t, step (next .pipeTurn (running [] [0] [])) = .next t :=
  ⟨rfl, by decide +kernel, _, rfl⟩

theorem witness_StartRunsBothWorkers :
    (configuredWith [0] [true]).env.operand = .empty ∧
      ((configuredWith [0] [true]).pipeState = .idle ∨ (configuredWith [0] [true]).pipeState = .stopped) ∧
      (configuredWith [0] [true]).fanState ≠ .running ∧ 1 ≤ (configuredWith [0] [true]).regs.chanCount.toNat ∧
      (∀ i, i < (configuredWith [0] [true]).regs.chanCount.toNat → ∃ g, (configuredWith [0] [true]).regs.freq i = some g) ∧
      (∃ l, (configuredWith [0] [true]).regs.lockedTimeout = some l) ∧
      (configuredWith [0] [true]).regs.sweepTimeout = some 1000000 ∧
      (configuredWith [0] [true]).regs.freq 0 = some 2402 ∧
      (configuredWith [0] [true]).startScan.tunerReturnsOk 2402 = true := by
  refine ⟨rfl, .inl rfl, by decide, by decide, ?_, ⟨_, rfl⟩, rfl, by decide +kernel, rfl⟩
  intro i h
  have h3 : i < 3 := h
  match i with
  | 0 => exact ⟨2402, by decide +kernel⟩
  | 1 => exact ⟨2403, by decide +kernel⟩
  | 2 => exact ⟨2404, by decide +kernel⟩

theorem witness_StartFaultsWhenTunerFails :
    (configuredWith [0] [false]).env.operand = .empty ∧
      ((configuredWith [0] [false]).pipeState = .idle ∨ (configuredWith [0] [false]).pipeState = .stopped) ∧
      (configuredWith [0] [false]).fanState ≠ .running ∧ 1 ≤ (configuredWith [0] [false]).regs.chanCount.toNat ∧
      (∀ i, i < (configuredWith [0] [false]).regs.chanCount.toNat → ∃ g, (configuredWith [0] [false]).regs.freq i = some g) ∧
      (∃ l, (configuredWith [0] [false]).regs.lockedTimeout = some l) ∧
      (configuredWith [0] [false]).regs.sweepTimeout = some 1000000 ∧
      (configuredWith [0] [false]).regs.freq 0 = some 2402 ∧
      (configuredWith [0] [false]).startScan.tunerReturnsOk 2402 = false := by
  refine ⟨rfl, .inl rfl, by decide, by decide, ?_, ⟨_, rfl⟩, rfl, by decide +kernel, rfl⟩
  intro i h
  have h3 : i < 3 := h
  match i with
  | 0 => exact ⟨2402, by decide +kernel⟩
  | 1 => exact ⟨2403, by decide +kernel⟩
  | 2 => exact ⟨2404, by decide +kernel⟩

theorem witness_StartRefusals : (running [] [] []).env.operand = .empty ∧ (running [] [] []).pipeState = .running ∧
      State.reset.env.operand = .empty ∧ State.reset.pipeState = .idle ∧ State.reset.fanState ≠ .running ∧
      State.reset.regs.chanCount = 0 := by decide +kernel

/-- The last channel in use is unwritten. -/
theorem witness_StartRefusals_unwritten :
    ({ State.reset with regs := { configured.regs with chanCount := 4 } } : State).env.operand = .empty ∧
      (3 < ({ configured.regs with chanCount := 4 } : Regs).chanCount.toNat ∧
        ({ configured.regs with chanCount := 4 } : Regs).freq 3 = none) ∧
      State.reset.regs.lockedTimeout = none ∧ State.reset.regs.sweepTimeout = none := by decide +kernel

theorem witness_StopAndPushCommands : State.reset.env.operand = .empty ∧ (∃ t, exec .stop State.reset = .next t) ∧
      (State.reset.present (.bits [])).env.operand = .bits [] := ⟨rfl, ⟨_, rfl⟩, rfl⟩

theorem witness_PipelineStopCheck : ({ running [fix] [] [] with stopReq := true } : State).pipeState = .running ∧
      ({ running [fix] [] [] with stopReq := true } : State).stopReq = true := ⟨rfl, rfl⟩

/-- A success at a time when a failed tick would hop. -/
theorem witness_SuccessTickLocksAndNeverHops :
    (running [fix] [9000000] []).Ticks ∧ (running [fix] [9000000] []).inq = fix :: [] ∧
      (running [fix] [9000000] []).regs.decodeCand fix = .ok fixFrame ∧
      (running [fix] [9000000] []).regs.lockedTimeout = some 5000000 := by decide +kernel

theorem witness_QuietTickChangesNoScanState : (running [[]] [1000000] []).Ticks ∧
      (∀ b rest, (running [[]] [1000000] []).inq = b :: rest →
        ∃ e, (running [[]] [1000000] []).regs.decodeCand b = .error e) ∧
      ((running [[]] [1000000] []).clockSample - (running [[]] [1000000] []).scan.lastSuccess).toNat ≤
        (running [[]] [1000000] []).scan.activeTimeout.toNat := by
  refine ⟨⟨rfl, rfl⟩, ?_, by decide +kernel⟩
  intro b rest h
  cases h
  exact ⟨.noValidFrame, by decide +kernel⟩

theorem witness_ExpiredTickHops :
    (running [] [1000001] [true]).Ticks ∧ (running [] [1000001] [true]).faultCause = .ok ∧
      (∀ b rest, (running [] [1000001] [true]).inq = b :: rest →
        ∃ e, (running [] [1000001] [true]).regs.decodeCand b = .error e) ∧
      (running [] [1000001] [true]).scan.activeTimeout.toNat <
        ((running [] [1000001] [true]).clockSample - (running [] [1000001] [true]).scan.lastSuccess).toNat ∧
      (running [] [1000001] [true]).regs.chanCount ≠ 0 ∧
      (1 : BitVec 8).toNat = ((running [] [1000001] [true]).scan.channelIndex.toNat + 1) %
        (running [] [1000001] [true]).regs.chanCount.toNat ∧
      (running [] [1000001] [true]).regs.freq (1 : BitVec 8).toNat = some 2403 ∧
      (running [] [1000001] [true]).regs.sweepTimeout = some 1000000 :=
  ⟨⟨rfl, rfl⟩, rfl, fun _ _ h => by (cases h), by decide +kernel, by decide +kernel, by decide +kernel,
    by decide +kernel, rfl⟩

/-- Draws up to the end of the dwell and one past it. -/
def dwelling : State := running [] [5, 1000000, 1000001] []

/-- A draw equal to the end of the dwell, and the next one. -/
theorem witness_DwellThenHop : dwelling.Ticks ∧ dwelling.inq = [] ∧ dwelling.TimeOk ∧
      dwelling.env.clockIn = [5, 1000000] ++ 1000001 :: [] ∧ dwelling.regs.chanCount ≠ 0 ∧
      dwelling.lastNow.toNat ≤ dwelling.scan.lastSuccess.toNat + dwelling.scan.activeTimeout.toNat ∧
      (∀ x ∈ ([5, 1000000] : List Timestamp),
        x.toNat ≤ dwelling.scan.lastSuccess.toNat + dwelling.scan.activeTimeout.toNat) ∧
      dwelling.scan.lastSuccess.toNat + dwelling.scan.activeTimeout.toNat < (1000001 : Timestamp).toNat := by
  refine ⟨⟨rfl, rfl⟩, rfl, by decide +kernel, rfl, by decide +kernel, by decide +kernel, ?_, by decide +kernel⟩
  intro x hx
  simp only [List.mem_cons, List.not_mem_nil, or_false] at hx
  rcases hx with rfl | rfl <;> decide +kernel

theorem witness_PipelinePreservesOrder : 2 ≤ (running [fix, []] [1, 2] []).inq.length ∧
      ∀ m, m < 2 → (State.pipeTurn^[m] (running [fix, []] [1, 2] [])).Ticks := by decide +kernel

theorem witness_FaultedUntilReset :
    (next .pipeTurn { running [[]] [] [] with pipeState := .faulted }).pipeState = .faulted ∧
      (next .pipeTurn { running [[]] [] [] with pipeState := .faulted }).nextEvent ≠ .reset ∧
      ∃ t, step (next .pipeTurn { running [[]] [] [] with pipeState := .faulted }) = .next t :=
  ⟨rfl, by decide +kernel, _, rfl⟩

theorem witness_ScanStateWriters_hopping :
    (∃ t, step (next .pipeTurn (running [] [1000001] [true])) = .next t ∧
        t.scan ≠ (next .pipeTurn (running [] [1000001] [true])).scan) ∧
      (next .pipeTurn (running [] [1000001] [true])).Hopping :=
  ⟨⟨_, rfl, by decide +kernel⟩, rfl, ⟨rfl, rfl⟩, fun _ _ h => (nomatch h), by decide +kernel⟩

theorem witness_ScanStateWriters_starting :
    (∃ t, step (next (.command 0x90000000 .empty) (configuredWith [0] [true])) = .next t) ∧
      (next (.command 0x90000000 .empty) (configuredWith [0] [true])).Starting :=
  ⟨⟨_, rfl⟩, ⟨_, rfl, by decide +kernel⟩, by decide, by decide, by decide, by decide +kernel⟩

/-- A tick at the very end of the dwell. -/
theorem witness_ScanStateWriters_neither :
    (∃ t, step (next .pipeTurn (running [] [1000000] [true])) = .next t) ∧
      ¬ (next .pipeTurn (running [] [1000000] [true])).Starting ∧ ¬ (next .pipeTurn (running [] [1000000] [true])).Hopping := by
  refine ⟨⟨_, rfl⟩, ?_, ?_⟩
  · rintro ⟨⟨w, h, _⟩, _⟩
    cases h
  · rintro ⟨_, _, _, h⟩
    exact absurd h (by decide +kernel)

theorem witness_ConnectSetsOneSlot :
    State.reset.env.operand = .empty ∧ (delivering []).isConnected (0 : BitVec 4).toNat = true := by decide +kernel

theorem witness_PopTakesHead :
    (delivering [fixFrame]).fanTurn.env.operand = .empty ∧
      (delivering [fixFrame]).fanTurn.isConnected (0 : BitVec 4).toNat = true ∧
      (delivering [fixFrame]).fanTurn.slotQueue 0 = fixFrame :: [] ∧ (delivering []).slotQueue 0 = [] ∧
      (delivering []).isConnected (0 : BitVec 4).toNat = true ∧ (delivering []).isConnected (15 : BitVec 4).toNat = false :=
  by decide +kernel

theorem witness_FanoutTurn :
    (delivering [fixFrame]).fanState = .running ∧ (delivering [fixFrame]).stopReq = false ∧
      (delivering [fixFrame]).frameq = fixFrame :: [] ∧ (delivering []).frameq = [] ∧
      ({ delivering [] with stopReq := true } : State).stopReq = true ∧ State.reset.fanState ≠ .running :=
  by decide +kernel

theorem witness_NoReplayAfterConnect :
    (delivering [fixFrame, fixFrame]).fanState = .running ∧ (delivering [fixFrame, fixFrame]).stopReq = false ∧
      (delivering [fixFrame, fixFrame]).frameq = [fixFrame] ++ [fixFrame] ∧
      (delivering [fixFrame, fixFrame]).isConnected (1 : BitVec 4).toNat = false ∧
      (delivering [fixFrame, fixFrame]).isConnected (0 : BitVec 4).toNat = true := by decide +kernel

theorem witness_OnlyResetDisconnects :
    (next .fanTurn (delivering [])).nextEvent ≠ .reset ∧ (∃ t, step (next .fanTurn (delivering [])) = .next t) ∧
      (next .fanTurn (delivering [])).isConnected 0 = true := ⟨by decide +kernel, ⟨_, rfl⟩, rfl⟩

theorem witness_AnsweringCommandsWriteNothing :
    answersOnly .crcRead = true ∧ ∃ t, exec .crcRead State.reset = .next t := ⟨rfl, _, rfl⟩

theorem witness_FailingCommandChangesNothing :
    ∃ t, exec .start State.reset = .next t ∧ t.env.response = some ⟨.configError, .nothing⟩ ∧
      (Status.configError : Status) ≠ .ok := ⟨_, rfl, rfl, by decide⟩

theorem witness_FailingCommandChangesNothing_start :
    ∃ t, exec .start (configuredWith [0] [false]) = .next t ∧
      t.env.response = some ⟨.setFrequencyFailed, .nothing⟩ ∧ Status.setFrequencyFailed ≠ .ok :=
  ⟨_, rfl, rfl, by decide⟩

theorem witness_ClockNeverRunsBack : (next .pipeTurn (running [] [0] [])).nextEvent ≠ .reset ∧
      ∃ t, step (next .pipeTurn (running [] [0] [])) = .next t := ⟨by decide +kernel, _, rfl⟩

theorem witness_ResetRestoresEveryValue :
    (next .reset (running [] [] [])).env.pending = .reset :: [] ∧ (239 : Nat) < 240 := by decide +kernel

theorem witness_EveryStepKeepsInvariant : (next .pipeTurn (running [fix] [9000000] [])).Inv ∧
      ∃ t, step (next .pipeTurn (running [fix] [9000000] [])) = .next t := ⟨by decide +kernel, _, rfl⟩

end Sys2Proof.Tests
end

section
/-! The step by its next event (R5, R12): which event is used up, one equation of `step` per kind of event, and O7. -/

namespace Sys2Proof.Machine

/-! ### The event used up -/

/-- The script's first event is the next one, and an empty script leaves the choice free (notes/assumptions/1.md, 2.md);
either way the rest of the script is what stays pending. -/
theorem nextEvent_and_tail {s : State} {e : Event} {rest : List Event}
    (h : s.env.pending = e :: rest ∨ (s.env.pending = [] ∧ rest = [] ∧ Config.nextEvent s.env.draws = e)) :
    s.nextEvent = e ∧ s.env.pending.tail = rest := by
  rcases h with scripted | ⟨empty, rfl, free⟩
  · simp [State.nextEvent, scripted]
  · simp [State.nextEvent, empty, free]

theorem afterEvent_eq_of_tail {s : State} {rest : List Event} (h : s.env.pending.tail = rest) :
    s.afterEvent = { s with env := { s.env with pending := rest, draws := s.env.draws + 1 } } := by
  rw [← h]; rfl

/-! ### The step of each kind of event -/

theorem step_of_command {s : State} {w : Word} {d : Operand} (h : s.nextEvent = .command w d) :
    step s = (s.afterEvent.present d).command w := by
  rw [step, h]

theorem step_of_pipeTurn {s : State} (h : s.nextEvent = .pipeTurn) : step s = .next s.afterEvent.pipeTurn := by
  rw [step, h]

theorem step_of_fanTurn {s : State} (h : s.nextEvent = .fanTurn) : step s = .next s.afterEvent.fanTurn := by
  rw [step, h]

/-! ### A command event, by what its word decodes to -/

theorem step_of_decoded {s : State} {w : Word} {d : Operand} {i : Instr} (h : s.nextEvent = .command w d)
    (hw : decode w = .ok i) : step s = exec i (s.afterEvent.present d) := by
  rw [step_of_command h, command_of_ok _ _ _ hw]

theorem step_of_rejected {s : State} {w : Word} {d : Operand} {x : Reject} (h : s.nextEvent = .command w d)
    (hw : decode w = .error x) :
    step s = .next ((s.afterEvent.present d).respond .illegalCommand .nothing) := by
  rw [step_of_command h, command_of_error _ _ _ hw]

end Sys2Proof.Machine

open Sys2Proof Sys2Proof.Machine

/-- Settles O7: the next event fixes which equation of `step` applies, and the tail of the script what stays pending. -/
theorem stepRunsDecodedCommand : Obligations.StepRunsDecodedCommand := by
  intro s e rest h
  obtain ⟨hnext, htail⟩ := nextEvent_and_tail h
  have hafter := afterEvent_eq_of_tail htail
  refine ⟨?decoded, ?rejected, ?pipe, ?fan⟩
  case decoded =>
    rintro w d i rfl hw
    rw [step_of_decoded hnext hw, hafter]
    rfl
  case rejected =>
    rintro w d x rfl hw
    exact ⟨_, step_of_rejected hnext hw, rfl, rfl, htail, rfl⟩
  case pipe =>
    rintro rfl
    rw [step_of_pipeTurn hnext, hafter]
  case fan =>
    rintro rfl
    rw [step_of_fanTurn hnext, hafter]

end

section
/-! What one transaction can do, said once with its guards: a command (R123), the tuner call of a hop (R226) and the
pipeline worker's turn (R219 to R224). Every statement about all steps splits along these cases. -/

namespace Sys2Proof.Machine

/-! ### Commands -/

/-- START passes every check and so calls the tuner (R214, R215). -/
def State.StartChecks (s : State) : Prop :=
  s.env.operand = .empty ∧ s.pipeState ≠ .running ∧ s.pipeState ≠ .faulted ∧ s.fanState ≠ .running ∧
    s.regs.complete = true

/-- What a command does to the state it runs in, with the guards it passed. -/
inductive CommandEffect (s : State) : Instr → State → Prop
  | answers {i : Instr} (d : Data) (hi : answersOnly i = true) : CommandEffect s i (s.respond .ok d)
  | fails {i : Instr} (e : Status) (hi : i = .start → ¬ s.StartChecks) : CommandEffect s i (s.respond e .nothing)
  | initsCrc (w : BitVec 2) (u : CrcUnit) (hu : CrcUnit.init w = .ok u) :
      CommandEffect s (.crcInit w) ({ s with crc := u }.respond .ok .nothing)
  | shiftsCrc (b : Bool) (u : CrcUnit) (hu : s.crc.shift b = .ok u) :
      CommandEffect s (.crcShift b) ({ s with crc := u }.respond .ok .nothing)
  | writesRegister (r : BitVec 8) (v : Word) (c : Regs) (hv : s.env.operand = .word v)
      (hp : s.pipeState ≠ .running) (hc : s.regs.write (Reg.ofNumber r) v = .ok c) :
      CommandEffect s (.cfgWrite r) ({ s with regs := c }.respond .ok .nothing)
  | starts (hs : s.StartChecks) (ht : s.startScan.tunerReturnsOk (s.regs.freqValue 0) = true) :
      CommandEffect s .start ({ s.startScan.afterCall (s.regs.freqValue 0) with
        pipeState := .running, fanState := .running }.respond .ok .nothing)
  | startFaults (hs : s.StartChecks) (ht : s.startScan.tunerReturnsOk (s.regs.freqValue 0) = false) :
      CommandEffect s .start
        ((s.startScan.afterCall (s.regs.freqValue 0)).enterFaulted.respond .setFrequencyFailed .nothing)
  | stops (hd : s.env.operand = .empty) : CommandEffect s .stop ({ s with stopReq := true }.respond .ok .nothing)
  | pushes (b : Bits) (hb : s.env.operand = .bits b) :
      CommandEffect s .pushCand ({ s with inq := s.inq ++ [b] }.respond .ok .nothing)
  | connects (k : BitVec 4) (hd : s.env.operand = .empty) :
      CommandEffect s (.connect k) ({ s with connected := withSlot s.connected k.toNat }.respond .ok .nothing)
  | pops (k : BitVec 4) (f : Frame) (rest : List Frame) (hd : s.env.operand = .empty)
      (hc : s.isConnected k.toNat = true) (hq : s.slotQueue k = f :: rest) :
      CommandEffect s (.pop k) ({ s with subq := s.subq.set k.toNat rest k.isLt }.respond .ok (.frame f))

/-- START with a check failing answers a status alone (R214, R215). -/
theorem execStart_of_not_checks (s : State) (h : ¬ s.StartChecks) :
    ∃ e, execStart s = .next (s.respond e .nothing) := by
  by_cases hd : s.env.operand = .empty
  · by_cases hw : s.pipeState = .running ∨ s.pipeState = .faulted ∨ s.fanState = .running
    · exact ⟨.invalidState, by simp [execStart, State.withEmpty, hd, hw, raise_eq]⟩
    · have hc : s.regs.complete = false := by
        simp only [not_or] at hw
        simpa [State.StartChecks, hd, hw] using h
      exact ⟨.configError, by simp [execStart, State.withEmpty, hd, hw, hc, raise_eq]⟩
  · exact ⟨.illegalCommand, by
      rcases withEmpty_cases s _ with ⟨hd', _⟩ | ⟨_, he⟩
      · exact absurd hd' hd
      · exact he⟩

/-- START with every check passing samples the clock and calls the tuner, which decides between Running and Faulted
(R214, R216, R226). -/
theorem execStart_of_checks (s : State) (h : s.StartChecks) :
    execStart s =
      if s.startScan.tunerReturnsOk (s.regs.freqValue 0) then
        .next ({ s.startScan.afterCall (s.regs.freqValue 0) with
          pipeState := .running, fanState := .running }.respond .ok .nothing)
      else .next ((s.startScan.afterCall (s.regs.freqValue 0)).enterFaulted.respond .setFrequencyFailed .nothing) := by
  obtain ⟨hd, hr, hf, hn, hc⟩ := h
  simp [execStart, State.withEmpty, hd, hr, hf, hn, hc, complete_eq, raise_eq]

/-- A command that replaces the streaming register fails, or stores what its rule gives. -/
theorem effect_of_storeCrc {s t : State} {i : Instr} {r : Except Status CrcUnit} (hi : i ≠ .start)
    (hstore : ∀ u, r = .ok u → CommandEffect s i ({ s with crc := u }.respond .ok .nothing))
    (h : s.storeCrc r = .next t) : CommandEffect s i t := by
  rcases storeCrc_cases s r with ⟨u, hu, he⟩ | ⟨e, _, he⟩ <;> cases he.symm.trans h
  · exact hstore u hu
  · exact .fails e fun h => absurd h hi

/-- An answering command responds with a value or a status. -/
theorem effect_of_answer {s t : State} {i : Instr} {r : Except Status Data} (hi : answersOnly i = true)
    (h : s.answer r = .next t) : CommandEffect s i t := by
  rcases answer_cases s r with ⟨d, _, he⟩ | ⟨e, _, he⟩ <;> cases he.symm.trans h
  · exact .answers d hi
  · exact .fails e (by rintro rfl; cases hi)

/-- A failing command answers its status alone. -/
theorem effect_of_fail {s t : State} {i : Instr} {e : Status} (hi : i ≠ .start)
    (h : Host.Outcome.next (s.respond e .nothing) = (.next t : Result)) : CommandEffect s i t := by
  cases h
  exact .fails e fun h => absurd h hi

/-- Any command other than START on an operand that is not empty, where it wants the empty one, fails. -/
theorem effect_of_withEmpty {s t : State} {i : Instr} {r : Result} (hi : i ≠ .start)
    (hrun : s.env.operand = .empty → r = .next t → CommandEffect s i t) (h : s.withEmpty r = .next t) :
    CommandEffect s i t := by
  rcases withEmpty_cases s r with ⟨hd, he⟩ | ⟨_, he⟩
  · exact hrun hd (he.symm.trans h)
  · exact effect_of_fail hi (he.symm.trans h)

/-- A command on an operand that is no bit sequence, where it wants one, fails. -/
theorem effect_of_withBits {s t : State} {i : Instr} {k : Bits → Result} (hi : i ≠ .start)
    (hrun : ∀ b, s.env.operand = .bits b → k b = .next t → CommandEffect s i t) (h : s.withBits k = .next t) :
    CommandEffect s i t := by
  rcases withBits_cases s k with ⟨b, hb, he⟩ | ⟨_, he⟩
  · exact hrun b hb (he.symm.trans h)
  · exact effect_of_fail hi (he.symm.trans h)

/-- Everything a command can do. -/
theorem exec_effect {s t : State} : ∀ {i : Instr}, exec i s = .next t → CommandEffect s i t
  | .crcSeqW0, h => effect_of_withBits (by simp) (fun _ _ h => effect_of_fail (by simp) h) h
  | .crcSeqW3, h => effect_of_withBits (by simp) (fun _ _ h => effect_of_fail (by simp) h) h
  | .crc8, h => effect_of_withBits (by simp)
      (fun b _ h => effect_of_answer (r := .ok (.word ((crc8 b).setWidth 32))) rfl h) h
  | .crc16, h => effect_of_withBits (by simp)
      (fun b _ h => effect_of_answer (r := .ok (.word ((crc16 b).setWidth 32))) rfl h) h
  | .crcInit w, h => effect_of_withEmpty (by simp) (fun _ h => effect_of_storeCrc (by simp) (.initsCrc w) h) h
  | .crcShift b, h => effect_of_withEmpty (by simp) (fun _ h => effect_of_storeCrc (by simp) (.shiftsCrc b) h) h
  | .crcRead, h => effect_of_withEmpty (by simp) (fun _ h => effect_of_answer rfl h) h
  | .cfgRead _, h => effect_of_withEmpty (by simp) (fun _ h => effect_of_answer rfl h) h
  | .encode w a noack pid8 len8, h => by
    rcases withStrings_cases s a.toNat len8.toNat w.toNat _ with ⟨_, _, _, _, _, _, _, he⟩ | he
    · replace h := he.symm.trans h
      split at h
      · exact effect_of_fail (by simp) h
      · exact effect_of_answer rfl h
    · exact effect_of_fail (by simp) (he.symm.trans h)
  | .decode _ _ _ _, h => effect_of_withBits (by simp) (fun _ _ h => by
      split at h
      · exact effect_of_fail (by simp) h
      · exact effect_of_answer rfl h) h
  | .cfgWrite r, h => by
    rcases execCfgWrite_cases r s t h with ⟨v, c, hv, hp, hc, rfl⟩ | ⟨e, _, rfl⟩
    · exact .writesRegister r v c hv hp hc
    · exact .fails e (by simp)
  | .start, h => by
    by_cases hs : s.StartChecks
    · have he := (execStart_of_checks s hs).symm.trans h
      split at he
      next ht => cases he; exact .starts hs ht
      next ht => cases he; exact .startFaults hs (by simpa using ht)
    · obtain ⟨e, he⟩ := execStart_of_not_checks s hs
      cases he.symm.trans h
      exact .fails e fun _ => hs
  | .stop, h => effect_of_withEmpty (by simp) (fun hd h => by cases h; exact .stops hd) h
  | .pushCand, h => effect_of_withBits (by simp) (fun b hb h => by cases h; exact .pushes b hb) h
  | .connect k, h => effect_of_withEmpty (by simp) (fun hd h => by
      rw [params_maxSubs, if_neg (not_maxSubs_le_slot k)] at h
      cases h
      exact .connects k hd) h
  | .pop k, h => by
    by_cases hd : s.env.operand = .empty
    · rcases execPop_cases k s hd with ⟨_, he⟩ | ⟨_, _, he⟩ | ⟨hc, f, rest, hq, he⟩
      · exact effect_of_fail (by simp) (he.symm.trans h)
      · exact effect_of_fail (by simp) (he.symm.trans h)
      · cases he.symm.trans h
        exact .pops k f rest hd hc hq
    · exact effect_of_withEmpty (by simp) (fun hd' => absurd hd' hd) h

/-! ### The tuner call and the hop -/

/-- Beyond the call itself, the tuner's answer decides the worker's state and the fault cause alone (R226). -/
theorem setFrequency_frame (s : State) (f : Word) :
    s.setFrequency f = { s.afterCall f with
      pipeState := (s.setFrequency f).pipeState, faultCause := (s.setFrequency f).faultCause } := by
  rcases setFrequency_cases s f with ⟨_, h⟩ | ⟨_, h⟩ <;> rw [h]
  rfl

/-- The channel a hop of `s` enters. -/
def State.hopChannel (s : State) : BitVec 8 := nextChannel s.scan.channelIndex s.regs.chanCount

/-- The scan state a hop writes before its tuner call (R224). -/
def State.hopScan (s : State) (now : Timestamp) : State :=
  { s with scan := ⟨s.hopChannel, .sweeping, now, s.regs.sweepValue⟩ }

theorem hop_eq (s : State) (now : Timestamp) :
    s.hop now = (s.hopScan now).setFrequency (s.regs.freqValue s.hopChannel.toNat) := rfl

theorem hop_frame (s : State) (now : Timestamp) :
    s.hop now = { (s.hopScan now).afterCall (s.regs.freqValue s.hopChannel.toNat) with
      pipeState := (s.hop now).pipeState, faultCause := (s.hop now).faultCause } := setFrequency_frame _ _

@[simp] theorem hop_scan (s : State) (now : Timestamp) :
    (s.hop now).scan = ⟨s.hopChannel, .sweeping, now, s.regs.sweepValue⟩ := by
  rw [hop_frame]; rfl

@[simp] theorem hop_lastNow (s : State) (now : Timestamp) : (s.hop now).lastNow = s.lastNow := by
  rw [hop_frame]; rfl

@[simp] theorem hop_connected (s : State) (now : Timestamp) : (s.hop now).connected = s.connected := by
  rw [hop_frame]; rfl

/-- A hop makes one tuner call, with the new channel's frequency (R225). -/
@[simp] theorem hop_tunerLog (s : State) (now : Timestamp) :
    (s.hop now).env.tunerLog = s.env.tunerLog ++ [s.regs.freqValue s.hopChannel.toNat] := by
  rw [hop_frame]; rfl

/-! ### The pipeline worker's turn -/

/-- A tick's first effects: the sample is taken and the candidate, where there is one, leaves `inq` (R220, R221). -/
def State.afterTick (s : State) : State := { s.afterSample with inq := s.inq.tail }

@[simp] theorem State.afterTick_scan (s : State) : s.afterTick.scan = s.scan := rfl
@[simp] theorem State.afterTick_lastNow (s : State) : s.afterTick.lastNow = s.clockSample := rfl
@[simp] theorem State.afterTick_regs (s : State) : s.afterTick.regs = s.regs := rfl
@[simp] theorem State.afterTick_connected (s : State) : s.afterTick.connected = s.connected := rfl
@[simp] theorem State.afterTick_env_tunerLog (s : State) : s.afterTick.env.tunerLog = s.env.tunerLog := rfl

/-- The tick finds no frame: `inq` is empty or its head fails to decode. -/
def State.NoFrame (s : State) : Prop := ∀ b rest, s.inq = b :: rest → ∃ e, s.regs.decodeCand b = .error e

/-- What a pipeline turn does, with the guards it passed (R219 to R224). -/
inductive PipeEffect (s : State) : State → Prop
  | rests (hp : s.pipeState ≠ .running) : PipeEffect s s
  | stops (hp : s.pipeState = .running) (hs : s.stopReq = true) : PipeEffect s s.pipeStop
  | succeeds (ht : s.Ticks) (b : Bits) (rest : List Bits) (f : Frame) (hq : s.inq = b :: rest)
      (hf : s.regs.decodeCand b = .ok f) : PipeEffect s (s.afterTick.decodeSuccess f s.clockSample)
  | waits (ht : s.Ticks) (hn : s.NoFrame) (hx : s.scan.expired s.clockSample = false) : PipeEffect s s.afterTick
  | hops (ht : s.Ticks) (hn : s.NoFrame) (hx : s.scan.expired s.clockSample = true) :
      PipeEffect s (s.afterTick.hop s.clockSample)

/-- A tick that finds no frame waits or hops, as the timeout test says (R223, R224). -/
theorem effect_of_timeoutEval {s : State} (ht : s.Ticks) (hn : s.NoFrame) :
    PipeEffect s (s.afterTick.timeoutEval s.clockSample) := by
  rcases timeoutEval_cases s.afterTick s.clockSample with ⟨hx, he⟩ | ⟨hx, he⟩ <;> rw [he]
  · exact .hops ht hn hx
  · exact .waits ht hn hx

/-- Everything a pipeline turn can do. -/
theorem pipeTurn_effect (s : State) : PipeEffect s s.pipeTurn := by
  rcases pipeTurn_cases s with
    ⟨hp, he⟩ | ⟨hp, hs, he⟩ | ⟨ht, hq, he⟩ | ⟨ht, b, rest, hq, ⟨f, hf, he⟩ | ⟨e, hf, he⟩⟩
  · rw [he]
    exact .rests hp
  · rw [he]
    exact .stops hp hs
  · have hempty : s.afterSample = s.afterTick := by simp [State.afterTick, State.afterSample, hq]
    rw [he, hempty]
    exact effect_of_timeoutEval ht (by simp [State.NoFrame, hq])
  · have hhead : ({ s.afterSample with inq := rest } : State) = s.afterTick := by simp [State.afterTick, hq]
    rw [he, hhead]
    exact .succeeds ht b rest f hq hf
  · have hhead : ({ s.afterSample with inq := rest } : State) = s.afterTick := by simp [State.afterTick, hq]
    rw [he, hhead]
    exact effect_of_timeoutEval ht (by simp [State.NoFrame, hq, hf])

/-! ### The fan-out worker's turn -/

/-- A fan-out turn writes its own state, `frameq` and the slots' queues alone (R263, R264). -/
theorem fanTurn_frame (s : State) :
    s.fanTurn = { s with
      fanState := s.fanTurn.fanState, frameq := s.fanTurn.frameq, subq := s.fanTurn.subq } := by
  rcases fanTurn_cases s with ⟨_, he⟩ | ⟨_, _, he⟩ | ⟨_, _, _, he⟩ | ⟨_, _, f, rest, _, he⟩ <;> rw [he]
  rfl

@[simp] theorem fanTurn_connected (s : State) : s.fanTurn.connected = s.connected := by rw [fanTurn_frame]

@[simp] theorem fanTurn_lastNow (s : State) : s.fanTurn.lastNow = s.lastNow := by rw [fanTurn_frame]

@[simp] theorem fanTurn_scan (s : State) : s.fanTurn.scan = s.scan := by rw [fanTurn_frame]

@[simp] theorem fanTurn_env (s : State) : s.fanTurn.env = s.env := by rw [fanTurn_frame]

end Sys2Proof.Machine

end

section
/-! The lengths of a decoded frame (R36, R188), and O26. -/

namespace Sys2Proof.Machine

/-- A candidate gives a frame only where its fields fit and C is 1 or 2 (R182 to R188). -/
theorem tryCandidate_some {s : Bits} {a c off : Nat} {f : Frame} (h : tryCandidate false s a c off = .ok (some f)) :
    Fits s a c off ∧ (c = 1 ∨ c = 2) ∧
      ∃ got, f = frameAt s a c (off + 8) (lengthField s a (off + 8)) got := by
  by_cases hfits : Fits s a c off
  · obtain ⟨hfail, hmatch⟩ := tryCandidate_of_fits s a c off hfits
    have of_crc {v} (hc : c = 1 ∨ c = 2)
        (hv : crcOf c (slice s (off + 8) (8 * a + 9 + 8 * lengthField s a (off + 8))) = .ok v) :
        Fits s a c off ∧ (c = 1 ∨ c = 2) ∧
          ∃ got, f = frameAt s a c (off + 8) (lengthField s a (off + 8)) got := by
      rw [hmatch v hv] at h
      split at h <;> cases h
      exact ⟨hfits, hc, _, rfl⟩
    rcases crcOf_cases c (slice s (off + 8) (8 * a + 9 + 8 * lengthField s a (off + 8))) with
      ⟨hc, hv⟩ | ⟨hc, hv⟩ | ⟨_, _, he⟩
    · exact of_crc (.inl hc) hv
    · exact of_crc (.inr hc) hv
    · cases (hfail _ he).symm.trans h
  · cases (tryCandidate_of_not_fits s a c off hfits).symm.trans h

/-- The frame a decode returns is that of one of the candidates (R180). -/
theorem firstFrame_ok {overlong : Bool} {s : Bits} {a c : Nat} {f : Frame} :
    ∀ {offs : List Nat}, firstFrame overlong s a c offs = .ok f →
      ∃ off ∈ offs, tryCandidate overlong s a c off = .ok (some f)
  | [], h => by cases h
  | off :: rest, h => by
    unfold firstFrame at h
    split at h
    next => cases h
    next g hg => cases h; exact ⟨off, List.mem_cons_self, hg⟩
    next =>
      obtain ⟨o, ho, hf⟩ := firstFrame_ok h
      exact ⟨o, List.mem_cons_of_mem _ ho, hf⟩

/-- A decoded frame is the frame of a candidate whose fields fit, and its CRC length is supported. -/
theorem decodeFrame_ok {s : Bits} {a c : Nat} {raw : Bool} {t : Nat} {f : Frame}
    (h : decodeFrame s a c raw t = .ok f) :
    ∃ off got, Fits s a c off ∧ (c = 1 ∨ c = 2) ∧
      f = frameAt s a c (off + 8) (lengthField s a (off + 8)) got := by
  obtain ⟨off, _, hf⟩ := firstFrame_ok h
  obtain ⟨hfits, hc, got, hframe⟩ := tryCandidate_some hf
  exact ⟨off, got, hfits, hc, hframe⟩

end Sys2Proof.Machine

open Sys2Proof Sys2Proof.Machine

/-- Settles O26: the returned frame is cut out of a candidate that passed the length checks. -/
theorem decodedFrameLengths : Obligations.DecodedFrameLengths := by
  intro s a c raw t f h
  obtain ⟨off, got, hfits, hc, rfl⟩ := decodeFrame_ok h
  obtain ⟨haddr, hpay, hcrc⟩ := frameAt_lengths s a c off got hfits
  obtain ⟨_, hlen, _⟩ := hfits
  exact ⟨haddr, hpay, hlen, hcrc, hc⟩

end

section
/-! The block's invariant `State.Inv`: it speaks of the block's fields alone, every effect of a command or of a worker's
turn keeps it, and RESET restores it (R58); O59 and O60. -/

namespace Sys2Proof.Machine

/-! ### The outside is no part of it -/

theorem inv_env (s : State) (e : Env) : ({ s with env := e } : State).Inv ↔ s.Inv := Iff.rfl

@[simp] theorem inv_respond (s : State) (e : Status) (d : Data) : (s.respond e d).Inv ↔ s.Inv := inv_env _ _

@[simp] theorem inv_present (s : State) (d : Operand) : (s.present d).Inv ↔ s.Inv := inv_env _ _

@[simp] theorem inv_afterEvent (s : State) : s.afterEvent.Inv ↔ s.Inv := inv_env _ _

@[simp] theorem inv_afterCall (s : State) (f : Word) : (s.afterCall f).Inv ↔ s.Inv := inv_env _ _

/-! ### RESET -/

/-- The reset values meet the invariant (R58). -/
theorem reset_inv : State.reset.Inv := by
  have hslots : ∀ k : Fin Config.slots, State.reset.subq[k] = [] := fun k => by simp [State.reset]
  refine ⟨?crc, ?regs, ?run, rfl, ?frames, fun k _ => hslots k, BitVec.le_refl _, fun _ => ⟨rfl, rfl, rfl, rfl, hslots⟩⟩
  case crc => exact ⟨fun _ => rfl, fun h => nomatch h⟩
  case regs => decide
  case run => exact fun h => nomatch h
  case frames =>
    refine ⟨fun f h => (nomatch h), fun k f h => ?_⟩
    rw [hslots k] at h
    cases h

theorem applyReset_inv (s : State) : s.applyReset.Inv := (inv_env _ _).mpr reset_inv

/-! ### The CRC unit and the registers -/

theorem CrcUnit.init_ok {w : BitVec 2} {u : CrcUnit} (h : CrcUnit.init w = .ok u) : u.Ok := by
  unfold CrcUnit.init at h
  split at h <;> cases h <;> decide

/-- A shift keeps the width, and a CRC8 register its high byte 0 (R149). -/
theorem CrcUnit.shift_ok {u v : CrcUnit} {b : Bool} (h : u.shift b = .ok v) : v.Ok := by
  unfold CrcUnit.shift at h
  split at h
  next => cases h
  next hw =>
    cases h
    have hlow := (crcStep crc8Poly (u.reg.setWidth 8) b).isLt
    refine ⟨fun h => by simp [hw] at h, fun _ => ?_⟩
    simp only [BitVec.toNat_setWidth]
    omega
  next hw =>
    cases h
    exact ⟨fun h => by simp [hw] at h, fun h => by simp [hw] at h⟩

/-- A write that passes R213's check leaves legal registers. -/
theorem write_keeps_ok {c d : Regs} {r : Reg} {v : Word} (hc : c.Ok) (h : c.write r v = .ok d) : d.Ok := by
  obtain ⟨haddr, hcrc, hcount⟩ := hc
  rcases write_ok_cases c d r v h with ⟨_, h1, h15, rfl⟩ | ⟨_, hv, rfl⟩ | ⟨_, _, rfl⟩ | ⟨_, _, rfl⟩ | ⟨_, rfl⟩ |
    ⟨_, rfl⟩ | ⟨_, rfl⟩ | ⟨_, hv, rfl⟩ | ⟨i, _, rfl⟩
  case inl =>
    refine ⟨fun h0 => ?_, hcrc, hcount⟩
    have h0' : v.toNat % 2 ^ 4 = 0 := by simpa using congrArg BitVec.toNat h0
    omega
  case inr.inl =>
    refine ⟨haddr, ?_, hcount⟩
    rcases hv with hv | hv
    · exact .inl (BitVec.eq_of_toNat_eq (by simp [hv]))
    · exact .inr (BitVec.eq_of_toNat_eq (by simp [hv]))
  case inr.inr.inr.inr.inr.inr.inr.inl =>
    refine ⟨haddr, hcrc, ?_⟩
    rw [BitVec.toNat_setWidth]
    exact Nat.le_trans (Nat.mod_le _ _) hv
  all_goals exact ⟨haddr, hcrc, hcount⟩

/-- A complete configuration has a first channel (R215). -/
theorem chanCount_pos_of_complete {c : Regs} (h : c.complete = true) : 0 < c.chanCount.toNat := by
  simp only [Regs.complete, Bool.and_eq_true, decide_eq_true_eq] at h
  omega

/-- A frame decoded with legal registers is sound (R36). -/
theorem decodeCand_frame_ok {c : Regs} {b : Bits} {f : Frame} (hc : c.Ok) (h : c.decodeCand b = .ok f) : f.Ok := by
  obtain ⟨haddr, hpay, hlen, hcrc, hw⟩ := decodedFrameLengths b _ _ _ _ f h
  have hpos : 0 < c.addrLen.toNat := by
    obtain ⟨hne, _⟩ := hc
    exact Nat.pos_of_ne_zero fun h => hne (BitVec.eq_of_toNat_eq h)
  have hmax := c.addrLen.isLt
  exact ⟨hpay, hlen, by omega, by omega, by rw [hcrc]; exact hw⟩

/-! ### The queues -/

/-- CONNECT adds its slot to the subscriber set and takes none out (R261). -/
theorem withSlot_getLsbD (c : BitVec 16) (k j : Nat) :
    (withSlot c k).getLsbD j = (c.getLsbD j || (decide (j < 16) && decide (j = k))) := by
  rw [withSlot, BitVec.getLsbD_or, BitVec.getLsbD_shiftLeft, BitVec.getLsbD_one]
  by_cases h : j < k
  · simp [h, Nat.ne_of_lt h]
  · simp [h, show j - k = 0 ↔ j = k by omega]

/-- CONNECT disconnects no slot (R34). -/
theorem isConnected_withSlot {s : State} {k j : Nat} (h : s.isConnected j = true) :
    ({ s with connected := withSlot s.connected k } : State).isConnected j = true := by
  rw [State.isConnected] at h ⊢
  rw [withSlot_getLsbD, h, Bool.true_or]

/-- POP replaces the queue of its own slot alone (R262). -/
theorem subq_set_getElem (s : State) (k : BitVec 4) (rest : List Frame) (j : Fin Config.slots) :
    (s.subq.set k.toNat rest k.isLt)[j] = if k.toNat = j then rest else s.subq[j] := by
  simp [Vector.getElem_set]

/-! ### The worker's lifecycle -/

/-- The part of the invariant that no worker's lifecycle decides. -/
def State.DataOk (s : State) : Prop := s.crc.Ok ∧ s.regs.Ok ∧ s.FramesOk ∧ s.SlotsOk ∧ s.TimeOk

theorem inv_iff_dataOk (s : State) : s.Inv ↔ s.DataOk ∧ s.RunOk ∧ s.FaultOk ∧ s.IdleOk := by
  simp only [State.Inv, State.DataOk]
  tauto

/-- A Running pipeline with a complete configuration, inside its table and with no fault (R24, R29). -/
theorem inv_of_running {s : State} (hd : s.DataOk) (hp : s.pipeState = .running) (hf : s.faultCause = .ok)
    (hc : s.regs.complete = true) (hi : s.scan.channelIndex.toNat < s.regs.chanCount.toNat) : s.Inv :=
  (inv_iff_dataOk s).mpr ⟨hd, fun _ => ⟨hc, hi⟩, by simp [State.FaultOk, hp, hf], fun h => by simp [hp] at h⟩

/-- The fatal condition sets worker and cause together (R226, R293). -/
theorem enterFaulted_inv {s : State} (hd : s.DataOk) : s.enterFaulted.Inv :=
  (inv_iff_dataOk _).mpr ⟨hd, fun h => (nomatch h), rfl, fun h => (nomatch h)⟩

theorem faultCause_ok {s : State} (hs : s.FaultOk) (hp : s.pipeState ≠ .faulted) : s.faultCause = .ok := by
  rw [hs, if_neg hp]

/-- A sample leaves the last success in the past (R30). -/
theorem afterSample_timeOk {s : State} (h : s.TimeOk) : s.afterSample.TimeOk :=
  BitVec.le_trans h (lastNow_le_clockSample s)

/-! ### Commands -/

/-- START's writes before its tuner call touch no part of the data but the clock and the scan (R216). -/
theorem startScan_dataOk {s : State} (hs : s.DataOk) : s.startScan.DataOk := by
  obtain ⟨hcrc, hregs, hframes, hslots, _⟩ := hs
  exact ⟨hcrc, hregs, hframes, hslots, BitVec.le_refl _⟩

theorem CommandEffect.keeps_inv {s t : State} {i : Instr} (h : CommandEffect s i t) (hs : s.Inv) : t.Inv := by
  obtain ⟨hcrc, hregs, hrun, hfault, hframes, hslots, htime, hidle⟩ := id hs
  have hdata : s.DataOk := ⟨hcrc, hregs, hframes, hslots, htime⟩
  cases h with
  | answers | fails => exact hs
  | initsCrc w u hu => exact ⟨CrcUnit.init_ok hu, hregs, hrun, hfault, hframes, hslots, htime, hidle⟩
  | shiftsCrc b u hu => exact ⟨CrcUnit.shift_ok hu, hregs, hrun, hfault, hframes, hslots, htime, hidle⟩
  | writesRegister r v c hv hp hc =>
    exact ⟨hcrc, write_keeps_ok hregs hc, fun h => absurd h hp, hfault, hframes, hslots, htime, hidle⟩
  | starts hs ht =>
    obtain ⟨_, _, hnf, _, hc⟩ := hs
    have hcause : s.faultCause = .ok := faultCause_ok hfault hnf
    rw [inv_respond]
    exact inv_of_running (startScan_dataOk hdata) rfl hcause hc (chanCount_pos_of_complete hc)
  | startFaults hs ht =>
    rw [inv_respond]
    exact enterFaulted_inv (startScan_dataOk hdata)
  | stops | pushes => exact hs
  | connects k hd =>
    have hslots' : ({ s with connected := withSlot s.connected k.toNat } : State).SlotsOk := fun j hj =>
      hslots j (by
        by_contra hc
        rw [isConnected_withSlot (by simpa using hc)] at hj
        cases hj)
    exact ⟨hcrc, hregs, hrun, hfault, hframes, hslots', htime, hidle⟩
  | pops k f rest hd hc hq =>
    obtain ⟨hqueued, hslot⟩ := hframes
    have hqk : s.subq[(⟨k.toNat, k.isLt⟩ : Fin Config.slots)] = f :: rest := hq
    have hrest : ∀ g ∈ rest, g.Ok := fun g hg => hslot ⟨k.toNat, k.isLt⟩ g (hqk ▸ List.mem_cons_of_mem _ hg)
    rw [inv_respond]
    refine ⟨hcrc, hregs, hrun, hfault, ⟨hqueued, fun j g hg => ?frames⟩, fun j hj => ?slots, htime, fun hp => ?idle⟩
    case frames =>
      replace hg : g ∈ (s.subq.set k.toNat rest k.isLt)[j] := hg
      rw [subq_set_getElem] at hg
      split at hg
      · exact hrest g hg
      · exact hslot j g hg
    case slots =>
      replace hj : s.isConnected j = false := hj
      have hkj : k.toNat ≠ j := fun h => by rw [h, hj] at hc; cases hc
      exact (subq_set_getElem s k rest j).trans ((if_neg hkj).trans (hslots j hj))
    case idle =>
      obtain ⟨_, _, _, _, hempty⟩ := hidle hp
      cases hqk.symm.trans (hempty _)

/-! ### The workers -/

/-- The queue of sound frames with a decoded one behind it, and the success as the new last success (R220, R222). -/
theorem decodeSuccess_dataOk {s : State} {f : Frame} (hs : s.DataOk) (hf : f.Ok) :
    (s.decodeSuccess f s.lastNow).DataOk := by
  obtain ⟨hcrc, hregs, ⟨hqueued, hslot⟩, hslots, _⟩ := hs
  refine ⟨hcrc, hregs, ⟨fun g hg => ?_, hslot⟩, hslots, BitVec.le_refl _⟩
  rcases List.mem_append.mp hg with hg | hg
  · exact hqueued g hg
  · rw [List.mem_singleton.mp hg]
    exact hf

/-- A hop of a Running pipeline enters a channel of the table, or faults (R224, R226). -/
theorem hop_inv {s : State} (hs : s.Inv) (hp : s.pipeState = .running) : (s.hop s.lastNow).Inv := by
  obtain ⟨hcrc, hregs, hrun, hfault, hframes, hslots, _, _⟩ := hs
  obtain ⟨hc, hi⟩ := hrun hp
  have hdata : (s.hopScan s.lastNow).DataOk := ⟨hcrc, hregs, hframes, hslots, BitVec.le_refl _⟩
  have hcause : s.faultCause = .ok := faultCause_ok hfault (by simp [hp])
  have hn : s.regs.chanCount ≠ 0 := fun h => by simp [h] at hi
  rcases setFrequency_cases (s.hopScan s.lastNow) (s.regs.freqValue s.hopChannel.toNat) with ⟨_, he⟩ | ⟨_, he⟩ <;>
    rw [hop_eq, he]
  · exact inv_of_running hdata hp hcause hc (nextChannel_lt _ _ hn)
  · exact enterFaulted_inv hdata

/-- A Running pipeline's sample and the candidate it takes keep the invariant (R30, R220). -/
theorem afterTick_inv {s : State} (hs : s.Inv) (hp : s.pipeState = .running) : s.afterTick.Inv := by
  obtain ⟨hcrc, hregs, hrun, hfault, hframes, hslots, htime, _⟩ := hs
  exact ⟨hcrc, hregs, hrun, hfault, hframes, hslots, afterSample_timeOk htime, fun h => nomatch hp.symm.trans h⟩

theorem PipeEffect.keeps_inv {s t : State} (h : PipeEffect s t) (hs : s.Inv) : t.Inv := by
  cases h with
  | rests => exact hs
  | stops hp =>
    obtain ⟨hcrc, hregs, _, hfault, hframes, hslots, htime, _⟩ := hs
    have hcause : s.faultCause = .ok := faultCause_ok hfault (by simp [hp])
    exact ⟨hcrc, hregs, fun h => (nomatch h), hcause, hframes, hslots, htime, fun h => (nomatch h)⟩
  | succeeds ht b rest f hq hf =>
    obtain ⟨hp, _⟩ := ht
    obtain ⟨hdata, hrun, hfault, _⟩ := (inv_iff_dataOk _).mp (afterTick_inv hs hp)
    obtain ⟨hc, hi⟩ := hrun hp
    obtain ⟨_, hregs, _⟩ := hs
    have hcause : s.afterTick.faultCause = .ok := faultCause_ok hfault (by simp [State.afterTick, hp])
    exact inv_of_running (decodeSuccess_dataOk hdata (decodeCand_frame_ok hregs hf)) hp hcause hc hi
  | waits ht => exact afterTick_inv hs ht.1
  | hops ht => exact hop_inv (afterTick_inv hs ht.1) ht.1

/-- A delivery hands a sound frame to connected slots alone (R263). -/
theorem deliver_keeps_inv {s : State} {f : Frame} {rest : List Frame} (hs : s.Inv) (hp : s.fanState = .running)
    (hq : s.frameq = f :: rest) : ({ s with frameq := rest, subq := s.deliver f } : State).Inv := by
  obtain ⟨hcrc, hregs, hrun, hfault, ⟨hqueued, hslot⟩, hslots, htime, hidle⟩ := hs
  rw [hq] at hqueued
  refine ⟨hcrc, hregs, hrun, hfault, ⟨fun g hg => hqueued g (List.mem_cons_of_mem _ hg), fun k g hg => ?frames⟩,
    fun k hk => ?slots, htime, fun hi => ?idle⟩
  case frames =>
    replace hg : g ∈ (s.deliver f)[k.val] := hg
    rw [deliver_getElem] at hg
    split at hg
    · rcases List.mem_append.mp hg with hg | hg
      · exact hslot k g hg
      · rw [List.mem_singleton.mp hg]
        exact hqueued f List.mem_cons_self
    · exact hslot k g hg
  case slots =>
    replace hk : s.isConnected k = false := hk
    exact (deliver_getElem s f k k.isLt).trans ((if_neg (by simp [hk])).trans (hslots k hk))
  case idle =>
    obtain ⟨hfan, _⟩ := hidle hi
    cases hp.symm.trans hfan

theorem fanTurn_keeps_inv {s : State} (hs : s.Inv) : s.fanTurn.Inv := by
  rcases fanTurn_cases s with ⟨_, he⟩ | ⟨hp, _, he⟩ | ⟨_, _, _, he⟩ | ⟨hp, _, f, rest, hq, he⟩ <;> rw [he]
  · exact hs
  · obtain ⟨hcrc, hregs, hrun, hfault, hframes, hslots, htime, hidle⟩ := hs
    exact ⟨hcrc, hregs, hrun, hfault, hframes, hslots, htime, fun hi => nomatch hp.symm.trans (hidle hi).1⟩
  · exact hs
  · exact deliver_keeps_inv hs hp hq

end Sys2Proof.Machine

open Sys2Proof Sys2Proof.Machine

/-- Settles O59: the reset values are legal, every queue is empty and nothing has run. -/
theorem invariantHoldsAtReset : Obligations.InvariantHoldsAtReset := reset_inv

/-- Settles O60: the step's event is used up and its operand presented outside the block; what the command or the
worker's turn then does keeps the invariant, and RESET restores it. -/
theorem everyStepKeepsInvariant : Obligations.EveryStepKeepsInvariant := by
  intro s t hs hstep
  have hevent : s.afterEvent.Inv := (inv_afterEvent s).mpr hs
  rcases step_cases s t hstep with ⟨w, d, _, ⟨i, _, hexec⟩ | ⟨x, _, rfl⟩⟩ | ⟨_, rfl⟩ | ⟨_, rfl⟩ | ⟨_, rfl⟩
  · exact (exec_effect hexec).keeps_inv hevent
  · exact hevent
  · exact (pipeTurn_effect _).keeps_inv hevent
  · exact fanTurn_keeps_inv hevent
  · exact applyReset_inv _

end

section
/-! What every step but RESET leaves standing, read off the effects of commands and turns: the subscribers (R34), the
clock (R30) and the writers of the scan state and callers of the tuner (R26, R225); O49, O54, O55, O57. -/

namespace Sys2Proof.Machine

/-! ### Commands that only answer -/

theorem CommandEffect.eq_of_answersOnly {s t : State} {i : Instr} (h : CommandEffect s i t)
    (hi : answersOnly i = true) : ∃ e d, t = s.respond e d := by
  cases h with
  | answers d => exact ⟨.ok, d, rfl⟩
  | fails e => exact ⟨e, .nothing, rfl⟩
  | _ => cases hi

/-! ### The subscribers -/

theorem CommandEffect.keeps_connected {s t : State} {i : Instr} {k : Nat} (h : CommandEffect s i t)
    (hk : s.isConnected k = true) : t.isConnected k = true := by
  cases h with
  | connects => exact isConnected_withSlot hk
  | _ => exact hk

theorem PipeEffect.connected_eq {s t : State} (h : PipeEffect s t) : t.connected = s.connected := by
  cases h <;> simp

/-! ### The clock -/

/-- START alone samples the clock among the commands (R216). -/
theorem CommandEffect.lastNow_le {s t : State} {i : Instr} (h : CommandEffect s i t) : s.lastNow ≤ t.lastNow := by
  cases h with
  | starts | startFaults => exact lastNow_le_clockSample s
  | _ => exact BitVec.le_refl _

theorem PipeEffect.lastNow_le {s t : State} (h : PipeEffect s t) : s.lastNow ≤ t.lastNow := by
  cases h with
  | rests | stops => exact BitVec.le_refl _
  | succeeds | waits => exact lastNow_le_clockSample s
  | hops => simpa using lastNow_le_clockSample s

/-! ### The scan state and the tuner -/

/-- START alone writes the scan state among the commands (R26). -/
theorem CommandEffect.scan_eq {s t : State} {i : Instr} (h : CommandEffect s i t) (hi : i ≠ .start) :
    t.scan = s.scan := by
  cases h with
  | starts | startFaults => exact absurd rfl hi
  | _ => rfl

/-- Among the commands a START that passes its checks alone calls the tuner, once (R225). -/
theorem CommandEffect.tunerLog_eq {s t : State} {i : Instr} (h : CommandEffect s i t) :
    (i = .start ∧ s.StartChecks ∧ t.env.tunerLog = s.env.tunerLog ++ [s.regs.freqValue 0]) ∨
      (¬ (i = .start ∧ s.StartChecks) ∧ t.env.tunerLog = s.env.tunerLog) := by
  cases h with
  | starts hs | startFaults hs => exact .inl ⟨rfl, hs, rfl⟩
  | fails e hi => exact .inr ⟨fun ⟨h, hs⟩ => hi h hs, rfl⟩
  | answers d hi => exact .inr ⟨fun ⟨h, _⟩ => (nomatch h ▸ hi), rfl⟩
  | _ => exact .inr ⟨fun ⟨h, _⟩ => (nomatch h), rfl⟩

/-- A pipeline turn that hops: a tick with no frame, past the timeout (R224). -/
def State.HopsNow (s : State) : Prop := s.Ticks ∧ s.NoFrame ∧ s.scan.expired s.clockSample = true

/-- A pipeline turn calls the tuner where it hops, and there once, with the frequency of the channel it enters (R225). -/
theorem PipeEffect.tunerLog_eq {s t : State} (h : PipeEffect s t) :
    (s.HopsNow ∧ t.env.tunerLog = s.env.tunerLog ++ [s.regs.freqValue t.scan.channelIndex.toNat]) ∨
      (¬ s.HopsNow ∧ t.env.tunerLog = s.env.tunerLog) := by
  cases h with
  | hops ht hn hx => exact .inl ⟨⟨ht, hn, hx⟩, by simp⟩
  | rests hp => exact .inr ⟨fun ⟨⟨h, _⟩, _⟩ => hp h, rfl⟩
  | stops _ hs => exact .inr ⟨fun ⟨⟨_, h⟩, _⟩ => (nomatch hs.symm.trans h), rfl⟩
  | succeeds _ b rest f hq hf =>
    refine .inr ⟨fun ⟨_, hn, _⟩ => ?_, rfl⟩
    obtain ⟨e, he⟩ := hn b rest hq
    cases hf.symm.trans he
  | waits _ _ hx => exact .inr ⟨fun ⟨_, _, h⟩ => (nomatch hx.symm.trans h), rfl⟩

/-- `Starting` is START's checks at the state its command runs in. -/
theorem starting_iff {s : State} {w : Word} {d : Operand} (h : s.nextEvent = .command w d) :
    s.Starting ↔ decode w = .ok .start ∧ (s.afterEvent.present d).StartChecks := by
  constructor
  · rintro ⟨⟨w', he, hw⟩, hchecks⟩
    cases h.symm.trans he
    exact ⟨hw, rfl, hchecks⟩
  · rintro ⟨hw, hd, hchecks⟩
    cases (show d = .empty from hd)
    exact ⟨⟨w, h, hw⟩, hchecks⟩

/-- `Hopping` is a hop at the state the pipeline's turn runs in. -/
theorem hopping_iff {s : State} (h : s.nextEvent = .pipeTurn) : s.Hopping ↔ s.afterEvent.HopsNow := by
  rw [State.HopsNow, expired_iff]
  exact and_iff_right h

theorem not_starting {s : State} (h : ∀ w d, s.nextEvent ≠ .command w d) : ¬ s.Starting := by
  rintro ⟨⟨w, he, _⟩, _⟩
  exact h w _ he

theorem not_hopping {s : State} (h : s.nextEvent ≠ .pipeTurn) : ¬ s.Hopping := fun ⟨he, _⟩ => h he

end Sys2Proof.Machine

open Sys2Proof Sys2Proof.Machine

/-- Settles O55: such a command completes or fails, and either way it only responds. -/
theorem answeringCommandsWriteNothing : Obligations.AnsweringCommandsWriteNothing := by
  intro i s t hi h
  obtain ⟨e, d, rfl⟩ := (exec_effect h).eq_of_answersOnly hi
  rfl

/-- Settles O54: CONNECT alone writes the subscriber set, and it only adds to it. -/
theorem onlyResetDisconnects : Obligations.OnlyResetDisconnects := by
  intro s t k hreset hstep hk
  rcases step_cases s t hstep with ⟨w, d, _, ⟨i, _, hexec⟩ | ⟨x, _, rfl⟩⟩ | ⟨_, rfl⟩ | ⟨_, rfl⟩ | ⟨he, _⟩
  · exact (exec_effect hexec).keeps_connected hk
  · exact hk
  · rw [State.isConnected, (pipeTurn_effect _).connected_eq]
    exact hk
  · rw [State.isConnected, fanTurn_connected]
    exact hk
  · exact absurd he hreset

/-- Settles O57: only START and the ticks write `last_now`, and each writes a sample of the clock. -/
theorem clockNeverRunsBack : Obligations.ClockNeverRunsBack := by
  intro s t hreset hstep
  rcases step_cases s t hstep with ⟨w, d, _, ⟨i, _, hexec⟩ | ⟨x, _, rfl⟩⟩ | ⟨_, rfl⟩ | ⟨_, rfl⟩ | ⟨he, _⟩
  · exact (exec_effect hexec).lastNow_le
  · exact Nat.le_refl _
  · exact (pipeTurn_effect s.afterEvent).lastNow_le
  · rw [fanTurn_lastNow]
    exact Nat.le_refl _
  · exact absurd he hreset

/-- Settles O49: by the step's event, what a command, a worker's turn or RESET does to the scan state and the log. -/
theorem scanStateWriters : Obligations.ScanStateWriters := by
  intro s t hstep
  rcases step_cases s t hstep with ⟨w, d, he, ⟨i, hi, hexec⟩ | ⟨x, hx, rfl⟩⟩ | ⟨he, rfl⟩ | ⟨he, rfl⟩ | ⟨he, rfl⟩
  case inl.inl =>
    have heffect := exec_effect hexec
    have hnohop : ¬ s.Hopping := not_hopping (by simp [he])
    have hstart : s.Starting ↔ i = .start ∧ (s.afterEvent.present d).StartChecks := by
      rw [starting_iff he, hi, Except.ok.injEq]
    refine ⟨fun hscan => .inr (.inr ⟨w, d, he, ?_⟩), ?_⟩
    · by_contra hn
      exact hscan (heffect.scan_eq fun h => hn (h ▸ hi))
    · rcases heffect.tunerLog_eq with ⟨h, hs, hlog⟩ | ⟨h, hlog⟩
      · exact ⟨fun _ => hlog, fun hh => absurd hh hnohop, fun hh => absurd (hstart.mpr ⟨h, hs⟩) hh⟩
      · exact ⟨fun hh => absurd (hstart.mp hh) h, fun hh => absurd hh hnohop, fun _ _ => hlog⟩
  case inl.inr =>
    have hnostart : ¬ s.Starting := fun h => by cases hx.symm.trans ((starting_iff he).mp h).1
    have hnohop : ¬ s.Hopping := not_hopping (by simp [he])
    exact ⟨fun h => absurd rfl h, fun h => absurd h hnostart, fun h => absurd h hnohop, fun _ _ => rfl⟩
  case inr.inl =>
    have hnostart : ¬ s.Starting := not_starting (by simp [he])
    refine ⟨fun _ => .inl he, fun h => absurd h hnostart, ?_⟩
    rcases (pipeTurn_effect s.afterEvent).tunerLog_eq with ⟨hh, hlog⟩ | ⟨hh, hlog⟩
    · exact ⟨fun _ => hlog, fun _ h => absurd ((hopping_iff he).mpr hh) h⟩
    · exact ⟨fun h => absurd ((hopping_iff he).mp h) hh, fun _ _ => hlog⟩
  case inr.inr.inl =>
    exact ⟨fun h => absurd (fanTurn_scan _) h, fun h => absurd h (not_starting (by simp [he])),
      fun h => absurd h (not_hopping (by simp [he])), fun _ _ => by rw [fanTurn_env]; rfl⟩
  case inr.inr.inr =>
    exact ⟨fun _ => .inr (.inl he), fun h => absurd h (not_starting (by simp [he])),
      fun h => absurd h (not_hopping (by simp [he])), fun _ _ => rfl⟩

end

section
/-! The registers computed from state and read by number (R42, R52 to R57, R211), and RESET's values (R58); O31, O32,
O58. -/

namespace Sys2Proof.Machine

/-! ### A field at its place in a word -/

theorem getLsbD_place (v : BitVec n) (lo i : Nat) :
    (place v lo).getLsbD i = (decide (i < 32) && decide (lo ≤ i) && v.getLsbD (i - lo)) := by
  rw [place, BitVec.getLsbD_shiftLeft, BitVec.getLsbD_setWidth]
  by_cases h : lo ≤ i
  · by_cases h32 : i < 32
    · simp [h, h32, Nat.not_lt.mpr h, show i - lo < 32 by omega]
    · simp [h32]
  · simp [h, Nat.lt_of_not_le h]

theorem place_zero (v : BitVec n) : place v 0 = v.setWidth 32 := BitVec.shiftLeft_zero _

/-- A field reads back at its place. -/
theorem extractLsb'_place_self (v : BitVec n) (lo : Nat) (h : lo + n ≤ 32) : (place v lo).extractLsb' lo n = v := by
  ext i hi
  rw [BitVec.getElem_extractLsb', getLsbD_place, BitVec.getLsbD_eq_getElem (by omega)]
  simp [show lo + i < 32 by omega]

/-- A field is 0 at any place beside its own. -/
theorem extractLsb'_place_of_disjoint (v : BitVec n) (lo at' m : Nat) (h : lo + n ≤ at' ∨ at' + m ≤ lo) :
    (place v lo).extractLsb' at' m = 0#m := by
  ext i hi
  rw [BitVec.getElem_extractLsb', getLsbD_place]
  rcases h with h | h
  · simp [BitVec.getLsbD_of_ge v (at' + i - lo) (by omega)]
  · simp [show ¬ lo ≤ at' + i by omega]

/-- STATUS read at one of its fields, or between them, is what its five fields hold there (R42). -/
theorem extractLsb'_statusWord (s : State) (lo m : Nat) :
    s.statusWord.extractLsb' lo m =
      (place s.pipeState.code 0).extractLsb' lo m ||| (place s.fanState.code 2).extractLsb' lo m |||
        (place (BitVec.ofBool s.stopReq) 4).extractLsb' lo m ||| (place s.scan.mode.code 5).extractLsb' lo m |||
        (place s.scan.channelIndex 8).extractLsb' lo m := by
  simp only [State.statusWord, BitVec.extractLsb'_or]

/-! ### CFG_READ -/

theorem execCfgRead_of_ok {s : State} {r : BitVec 8} {v : Word} (hd : s.env.operand = .empty)
    (h : s.readReg (Reg.ofNumber r) = .ok v) : execCfgRead r s = .next (s.respond .ok (.word v)) := by
  rw [execCfgRead, State.withEmpty, hd, h]
  rfl

theorem execCfgRead_of_error {s : State} {r : BitVec 8} {e : Status} (hd : s.env.operand = .empty)
    (h : s.readReg (Reg.ofNumber r) = .error e) : execCfgRead r s = .next (s.respond e .nothing) := by
  rw [execCfgRead, State.withEmpty, hd, h]
  rfl

/-- The numbers from 0x10 name the channel table (R56). -/
theorem ofNumber_chanFreq {i : Nat} (h : i < 240) : Reg.ofNumber (BitVec.ofNat 8 (0x10 + i)) = .chanFreq i := by
  have hn : (BitVec.ofNat 8 (0x10 + i)).toNat = i + 16 := by
    rw [BitVec.toNat_ofNat]
    omega
  rw [Reg.ofNumber, hn]
  rfl

/-- Entry `i` of the channel table as a worker and CFG_READ see it (R31). -/
theorem freq_eq_getElem (c : Regs) {i : Nat} (h : i < 240) : c.freq i = c.chanFreq[i] := by
  rw [Regs.freq, Vector.getElem?_eq_getElem h]
  rfl

theorem rawMode_word (b : Bool) : (BitVec.ofBool b).setWidth 32 = if b then (1 : Word) else 0 := by
  cases b <;> decide

theorem lastSuccessLo_eq (s : State) : s.lastSuccessLo = s.scan.lastSuccess.setWidth 32 := by
  ext i hi
  simp [State.lastSuccessLo]

theorem lastSuccessHi_eq (s : State) : s.lastSuccessHi = (s.scan.lastSuccess >>> 32).setWidth 32 := by
  ext i hi
  simp [State.lastSuccessHi]

/-! ### RESET -/

theorem step_of_reset {s : State} (h : s.nextEvent = .reset) : step s = .next s.afterEvent.applyReset := by
  rw [step, h]

end Sys2Proof.Machine

open Sys2Proof Sys2Proof.Machine

/-- Settles O31: STATUS is the join of its fields, each at its own place. -/
theorem statusFields : Obligations.StatusFields := by
  refine ⟨fun s => ⟨?pipe, ?fan, ?stop, ?mode, ?reserved, ?channel, ?high⟩, by decide⟩
  case stop =>
    have hbit : s.statusWord.getLsbD 4 = (s.statusWord.extractLsb' 4 1).getLsbD 0 := by simp
    rw [hbit, extractLsb'_statusWord]
    simp (disch := omega) only [extractLsb'_place_self, extractLsb'_place_of_disjoint]
    simp
  all_goals
    rw [extractLsb'_statusWord]
    simp (disch := omega) only [extractLsb'_place_self, extractLsb'_place_of_disjoint, BitVec.or_zero, BitVec.zero_or]
  case pipe => cases s.pipeState <;> rfl
  case fan => cases s.fanState <;> rfl
  case mode => cases s.scan.mode <;> rfl
  case reserved | high => rfl

/-- Settles O58: RESET rebuilds the block from its reset values and keeps the outside alone. -/
theorem resetRestoresEveryValue : Obligations.ResetRestoresEveryValue := by
  refine ⟨?step, rfl, rfl, rfl, rfl, rfl, rfl, rfl, rfl, rfl, rfl, rfl, rfl, rfl, rfl, rfl, ?table, rfl, rfl, ?queues,
    rfl⟩
  case step =>
    intro s rest h
    obtain ⟨hnext, htail⟩ := nextEvent_and_tail (.inl h)
    exact ⟨_, step_of_reset hnext, rfl, htail, rfl⟩
  case table => exact fun i h => Vector.getElem_replicate h
  case queues => exact fun k => Vector.getElem_replicate k.isLt

/-- Settles O32: each number names its register, whose value CFG_READ answers as it stands. -/
theorem cfgReadAnswersRegister : Obligations.CfgReadAnswersRegister := by
  intro s hd
  have answers : ∀ {r v}, s.readReg (Reg.ofNumber r) = .ok v → exec (.cfgRead r) s = .next (s.respond .ok (.word v)) :=
    execCfgRead_of_ok hd
  have fails : ∀ {r e}, s.readReg (Reg.ofNumber r) = .error e → exec (.cfgRead r) s = .next (s.respond e .nothing) :=
    execCfgRead_of_error hd
  refine ⟨answers rfl, answers rfl, answers rfl, answers rfl, ?raw, ?locked, ?sweep, answers rfl, answers rfl,
    answers rfl, ?lo, ?hi, answers rfl, ?fault, ?crc, fails rfl, ?freq⟩
  case raw => exact answers (congrArg Except.ok (rawMode_word _))
  case locked =>
    cases hx : s.regs.lockedTimeout with
    | some v => exact answers (congrArg writtenValue hx)
    | none => exact fails (congrArg writtenValue hx)
  case sweep =>
    cases hx : s.regs.sweepTimeout with
    | some v => exact answers (congrArg writtenValue hx)
    | none => exact fails (congrArg writtenValue hx)
  case lo => exact answers (congrArg Except.ok (lastSuccessLo_eq s))
  case hi => exact answers (congrArg Except.ok (lastSuccessHi_eq s))
  case fault =>
    refine answers (congrArg Except.ok ?_)
    rw [State.faultCauseWord]
    cases s.faultCause <;> rfl
  case crc =>
    refine answers (congrArg Except.ok ?_)
    rw [State.crcStateWord, place_zero]
    cases s.crc.width <;> rfl
  case freq =>
    intro i h
    have hread : s.readReg (Reg.ofNumber (BitVec.ofNat 8 (0x10 + i))) = writtenValue s.regs.chanFreq[i] := by
      rw [ofNumber_chanFreq h, State.readReg, freq_eq_getElem _ h]
    cases hx : s.regs.chanFreq[i] with
    | some v => exact answers (hread.trans (congrArg writtenValue hx))
    | none => exact fails (hread.trans (congrArg writtenValue hx))

end

section
/-! The configuration registers have one writer besides RESET, a CFG_WRITE, and it needs the pipeline not Running (R212);
O36. -/

namespace Sys2Proof.Machine

@[simp] theorem hop_regs (s : State) (now : Timestamp) : (s.hop now).regs = s.regs := by
  rw [hop_frame]; rfl

@[simp] theorem fanTurn_regs (s : State) : s.fanTurn.regs = s.regs := by rw [fanTurn_frame]

/-- No command writes a configuration register of a Running pipeline: CFG_WRITE, the one that could, is refused (R212). -/
theorem CommandEffect.regs_eq {s t : State} {i : Instr} (h : CommandEffect s i t) (hr : s.pipeState = .running) :
    t.regs = s.regs := by
  cases h with
  | writesRegister _ _ _ _ hp => exact absurd hr hp
  | _ => rfl

/-- The pipeline worker reads the configuration and never writes it. -/
theorem PipeEffect.regs_eq {s t : State} (h : PipeEffect s t) : t.regs = s.regs := by
  cases h with
  | hops => rw [hop_regs, State.afterTick_regs]
  | _ => rfl

end Sys2Proof.Machine

open Sys2Proof Sys2Proof.Machine

/-- Settles O36, by the step's event: the worker's turns write no register, and a command meets the pipeline Running. -/
theorem configurationFixedWhileRunning : Obligations.ConfigurationFixedWhileRunning := by
  intro s t hrunning hreset hstep
  rcases step_cases s t hstep with ⟨w, d, _, ⟨i, _, hexec⟩ | ⟨x, _, rfl⟩⟩ | ⟨_, rfl⟩ | ⟨_, rfl⟩ | ⟨he, _⟩
  · exact (exec_effect hexec).regs_eq hrunning
  · rfl
  · exact (pipeTurn_effect s.afterEvent).regs_eq
  · exact fanTurn_regs s.afterEvent
  · exact absurd he hreset

end

section
/-! The fields of a command word (R8, R108 to R116): read back where they are placed, and joined into the word again;
the decoder by its opcode map (R119), and O1 to O5. -/

namespace Sys2Proof.Machine

/-! ### Reading a field -/

/-- A field of joined words is the join of their fields. -/
theorem field_or (u v : Word) (lo n : Nat) : field (u ||| v) lo n = field u lo n ||| field v lo n :=
  BitVec.extractLsb'_or

theorem field_place_self (v : BitVec n) (lo : Nat) (h : lo + n ≤ 32) : field (place v lo) lo n = v :=
  extractLsb'_place_self v lo h

theorem field_place_of_disjoint (v : BitVec n) (lo at' m : Nat) (h : lo + n ≤ at' ∨ at' + m ≤ lo) :
    field (place v lo) at' m = 0#m :=
  extractLsb'_place_of_disjoint v lo at' m h

theorem getLsbD_field (w : Word) (lo n i : Nat) :
    (field w lo n).getLsbD i = (decide (i < n) && w.getLsbD (lo + i)) := BitVec.getLsbD_extractLsb' lo n w i

/-- One bit of the word is its field of one bit. -/
theorem ofBool_bitField (w : Word) (i : Nat) : BitVec.ofBool (bitField w i) = field w i 1 := by
  ext j hj
  obtain rfl : j = 0 := by omega
  simp [bitField, field]

theorem bitField_eq_getLsbD (w : Word) (i : Nat) : bitField w i = (field w i 1).getLsbD 0 := by
  simp [bitField, field]

/-! ### Joining fields -/

/-- The word with its bits below `lo` cleared. -/
def clearBelow (w : Word) (lo : Nat) : Word := w >>> lo <<< lo

theorem getLsbD_clearBelow (w : Word) (lo i : Nat) :
    (clearBelow w lo).getLsbD i = (decide (lo ≤ i) && w.getLsbD i) := by
  rw [clearBelow, BitVec.getLsbD_shiftLeft, BitVec.getLsbD_ushiftRight]
  by_cases h : lo ≤ i
  · rw [Nat.add_sub_cancel' h]
    by_cases h32 : i < 32
    · simp [h, h32, Nat.not_lt.mpr h]
    · simp [BitVec.getLsbD_of_ge w i (by omega)]
  · simp [h, Nat.lt_of_not_le h]

@[simp] theorem clearBelow_zero (w : Word) : clearBelow w 0 = w := by simp [clearBelow]

/-- The field below the cleared bits' edge moves the edge down. -/
theorem clearBelow_or_place (w : Word) {hi lo n : Nat} (h : hi = lo + n) :
    clearBelow w hi ||| place (field w lo n) lo = clearBelow w lo := by
  subst h
  apply BitVec.eq_of_getLsbD_eq
  intro i hi
  rw [BitVec.getLsbD_or, getLsbD_clearBelow, getLsbD_clearBelow, getLsbD_place, getLsbD_field]
  by_cases hlo : lo ≤ i
  · rw [Nat.add_sub_cancel' hlo]
    by_cases hn : lo + n ≤ i
    · simp [hlo, hn]
    · simp [hlo, hn, hi, show i - lo < n by omega]
  · simp [hlo, show ¬ lo + n ≤ i by omega]

/-- The opcode alone is the word with the 28 bits below it cleared. -/
theorem place_opcode {w : Word} {op : BitVec 4} (h : field w 28 4 = op) : place op 28 = clearBelow w 28 := by
  rw [← h, ← clearBelow_or_place w (show 32 = 28 + 4 from rfl)]
  simp [clearBelow]

/-- Bits that are 0 anyway need no clearing. -/
theorem clearBelow_of_field_eq_zero {w : Word} {hi lo n : Nat} (h : hi = lo + n) (hz : field w lo n = 0) :
    clearBelow w hi = clearBelow w lo := by
  rw [← clearBelow_or_place w h, hz]
  simp [place]

/-! ### The decoder -/

theorem ifZero_of_zero {w : Word} {lo n : Nat} (i : Instr) (h : field w lo n = 0) : ifZero w lo n i = .ok i := if_pos h

theorem ifZero_eq_ok_iff {w : Word} {lo n : Nat} {i j : Instr} :
    ifZero w lo n i = .ok j ↔ field w lo n = 0 ∧ i = j := by
  rcases ifZero_cases w lo n i with ⟨h, e⟩ | ⟨h, e⟩ <;> rw [e]
  · simp [h]
  · exact iff_of_false (by simp) fun ⟨hz, _⟩ => h hz

theorem ifZero_eq_reservedBits_iff {w : Word} {lo n : Nat} {i : Instr} :
    ifZero w lo n i = .error .reservedBits ↔ field w lo n ≠ 0 := by
  rcases ifZero_cases w lo n i with ⟨h, e⟩ | ⟨h, e⟩ <;> rw [e]
  · simp [h]
  · exact iff_of_true rfl h

theorem ifZero_ne_reservedOpcode {w : Word} {lo n : Nat} {i : Instr} :
    ifZero w lo n i ≠ .error .reservedOpcode := by
  rcases ifZero_cases w lo n i with ⟨_, e⟩ | ⟨_, e⟩ <;> simp [e]

/-- The opcode map (R119): a word's opcode fixes the command, its fields and the bits that must be 0 (R121). -/
inductive OpcodeMap (w : Word) : Except Reject Instr → Prop
  | reserved (h : field w 28 4 = 0x0 ∨ field w 28 4 = 0xE ∨ field w 28 4 = 0xF) : OpcodeMap w (.error .reservedOpcode)
  | crcSeq (h : field w 28 4 = 0x1#4) : OpcodeMap w (ifZero w 0 26 (crcSeq (field w 26 2)))
  | crcInit (h : field w 28 4 = 0x2#4) : OpcodeMap w (ifZero w 0 26 (.crcInit (field w 26 2)))
  | crcShift (h : field w 28 4 = 0x3#4) : OpcodeMap w (ifZero w 1 27 (.crcShift (bitField w 0)))
  | crcRead (h : field w 28 4 = 0x4#4) : OpcodeMap w (ifZero w 0 28 .crcRead)
  | encode (h : field w 28 4 = 0x5#4) : OpcodeMap w (ifZero w 0 5
      (.encode (field w 26 2) (field w 22 4) (bitField w 21) (field w 13 8) (field w 5 8)))
  | decode (h : field w 28 4 = 0x6#4) : OpcodeMap w (ifZero w 0 13
      (.decode (field w 26 2) (field w 22 4) (bitField w 21) (field w 13 8)))
  | cfgRead (h : field w 28 4 = 0x7#4) : OpcodeMap w (ifZero w 0 20 (.cfgRead (field w 20 8)))
  | cfgWrite (h : field w 28 4 = 0x8#4) : OpcodeMap w (ifZero w 0 20 (.cfgWrite (field w 20 8)))
  | start (h : field w 28 4 = 0x9#4) : OpcodeMap w (ifZero w 0 28 .start)
  | stop (h : field w 28 4 = 0xA#4) : OpcodeMap w (ifZero w 0 28 .stop)
  | pushCand (h : field w 28 4 = 0xB#4) : OpcodeMap w (ifZero w 0 28 .pushCand)
  | connect (h : field w 28 4 = 0xC#4) : OpcodeMap w (ifZero w 0 24 (.connect (field w 24 4)))
  | pop (h : field w 28 4 = 0xD#4) : OpcodeMap w (ifZero w 0 24 (.pop (field w 24 4)))

/-- The decoder follows the opcode map. -/
theorem decode_opcodeMap (w : Word) : OpcodeMap w (decode w) := by
  have lift {k : Nat} (h : (field w 28 4).toNat = k) : field w 28 4 = BitVec.ofNat 4 k := by
    rw [← h, BitVec.ofNat_toNat, BitVec.setWidth_eq]
  unfold decode
  split
  next h => exact .crcSeq (lift h)
  next h => exact .crcInit (lift h)
  next h => exact .crcShift (lift h)
  next h => exact .crcRead (lift h)
  next h => exact .encode (lift h)
  next h => exact .decode (lift h)
  next h => exact .cfgRead (lift h)
  next h => exact .cfgWrite (lift h)
  next h => exact .start (lift h)
  next h => exact .stop (lift h)
  next h => exact .pushCand (lift h)
  next h => exact .connect (lift h)
  next h => exact .pop (lift h)
  next =>
    have := (field w 28 4).isLt
    refine .reserved ?_
    simp only [imp_false] at *
    simp only [← BitVec.toNat_inj]
    change (field w 28 4).toNat = 0 ∨ (field w 28 4).toNat = 14 ∨ (field w 28 4).toNat = 15
    omega

/-! ### The encoder -/

/-- The four CRC_SEQ commands are written alike, with their CRC length in bits 27 and 26 (R110). -/
theorem encode_crcSeq (v : BitVec 2) : encode (crcSeq v) = place 0x1#4 28 ||| place v 26 := by
  revert v
  decide

end Sys2Proof.Machine

open Sys2Proof Sys2Proof.Machine

/-- Settles O1: the encoder places each field where the decoder reads it, and nothing in the reserved bits. A command
with no field has one word, which is decoded as it stands. -/
theorem decodeInvertsEncode : Obligations.DecodeInvertsEncode := by
  intro i
  cases i with
  | crcSeqW0 | crc8 | crc16 | crcSeqW3 | crcRead | start | stop | pushCand => decide
  | crcInit | crcShift | cfgRead | cfgWrite | connect | pop | encode | decode =>
    -- the opcode and every field read back, which leaves the reserved bits
    simp (disch := omega) only [encode, decode, bitField_eq_getLsbD, field_or, field_place_self,
      field_place_of_disjoint, BitVec.or_zero, BitVec.zero_or, BitVec.toNat_ofNat, BitVec.getLsbD_ofBool]
    refine ifZero_of_zero _ ?_
    simp (disch := omega) only [field_or, field_place_of_disjoint]
    rfl

/-- Settles O2: an accepted word is its opcode joined with the fields its format reads and the reserved bits, all 0. -/
theorem encodeInvertsDecode : Obligations.EncodeInvertsDecode := by
  intro w i h
  have hmap := decode_opcodeMap w
  rw [h] at hmap
  generalize hr : Except.ok i = r at hmap
  cases hmap with
  | reserved => cases hr
  | crcSeq hop =>
    obtain ⟨hz, rfl⟩ := ifZero_eq_ok_iff.mp hr.symm
    rw [encode_crcSeq, place_opcode hop]
    simp (disch := omega) only [clearBelow_or_place]
    rw [clearBelow_of_field_eq_zero rfl hz, clearBelow_zero]
  | crcShift hop =>
    obtain ⟨hz, rfl⟩ := ifZero_eq_ok_iff.mp hr.symm
    rw [encode, ofBool_bitField, place_opcode hop, clearBelow_of_field_eq_zero rfl hz]
    simp (disch := omega) only [clearBelow_or_place, clearBelow_zero]
  | crcInit hop | cfgRead hop | cfgWrite hop | connect hop | pop hop | encode hop | decode hop =>
    obtain ⟨hz, rfl⟩ := ifZero_eq_ok_iff.mp hr.symm
    rw [encode, place_opcode hop]
    simp (disch := omega) only [ofBool_bitField, clearBelow_or_place]
    rw [clearBelow_of_field_eq_zero rfl hz, clearBelow_zero]
  | crcRead hop | start hop | stop hop | pushCand hop =>
    obtain ⟨hz, rfl⟩ := ifZero_eq_ok_iff.mp hr.symm
    rw [encode, place_opcode hop, clearBelow_of_field_eq_zero rfl hz, clearBelow_zero]

/-- Settles O3: by the opcode map, a reserved opcode is rejected as such and every other word for its reserved bits
alone. -/
theorem rejectedWordsExactly : Obligations.RejectedWordsExactly := by
  intro w
  have hmap := decode_opcodeMap w
  generalize decode w = r at hmap ⊢
  cases hmap with
  | reserved hop => rcases hop with hop | hop | hop <;> simp [hop]
  | _ hop => simp [hop, ifZero_ne_reservedOpcode, ifZero_eq_reservedBits_iff]

/-- Settles O4: by O3 such a word does not decode. -/
theorem reservedOpcodesAnswerIllegal : Obligations.ReservedOpcodesAnswerIllegal :=
  fun w s hop => command_of_error s w .reservedOpcode ((rejectedWordsExactly w).1.mpr hop)

/-- Settles O5: each word is the encoder's word of its command, which O1 reads back. -/
theorem workedEncodingsDecode : Obligations.WorkedEncodingsDecode :=
  ⟨decodeInvertsEncode .crc8, decodeInvertsEncode (.crcInit 2), decodeInvertsEncode (.crcShift true),
    decodeInvertsEncode .crcRead, decodeInvertsEncode (.encode 2 5 false 2 10),
    decodeInvertsEncode (.decode 2 5 true 8), decodeInvertsEncode (.cfgWrite 6), decodeInvertsEncode .start,
    decodeInvertsEncode .pushCand, decodeInvertsEncode (.connect 3)⟩

end

section
/-! A command's data operand (R117, R121) and its address length (R122), checked before anything else; O6 and O8. -/

namespace Sys2Proof.Machine

/-! ### An operand that does not fit -/

theorem withEmpty_of_not_fits {s : State} {i : Instr} (hi : operandFits i .empty = true)
    (h : operandFits i s.env.operand = false) (r : Result) :
    s.withEmpty r = .next (s.respond .illegalCommand .nothing) := by
  rcases withEmpty_cases s r with ⟨hd, _⟩ | ⟨_, he⟩
  · simp [hd, hi] at h
  · exact he

theorem withBits_of_not_fits {s : State} {i : Instr} (hi : ∀ b, operandFits i (.bits b) = true)
    (h : operandFits i s.env.operand = false) (k : Bits → Result) :
    s.withBits k = .next (s.respond .illegalCommand .nothing) := by
  rcases withBits_cases s k with ⟨b, hd, _⟩ | ⟨_, he⟩
  · simp [hd, hi] at h
  · exact he

theorem withWord_of_not_fits {s : State} {i : Instr} (hi : ∀ v, operandFits i (.word v) = true)
    (h : operandFits i s.env.operand = false) (k : Word → Result) :
    s.withWord k = .next (s.respond .illegalCommand .nothing) := by
  rcases withWord_cases s k with ⟨v, hd, _⟩ | ⟨_, he⟩
  · simp [hd, hi] at h
  · exact he

theorem operandFits_encode_strings (w : BitVec 2) (a : BitVec 4) (noack : Bool) (pid8 len8 : BitVec 8)
    (x y z : List Byte) : operandFits (.encode w a noack pid8 len8) (.strings x y z) =
      (x.length == a.toNat && y.length == len8.toNat && z.length == w.toNat) := rfl

/-- ENCODE's operand must also have the three lengths its fields name. -/
theorem withStrings_of_not_fits {s : State} {w : BitVec 2} {a : BitVec 4} {noack : Bool} {pid8 len8 : BitVec 8}
    (h : operandFits (.encode w a noack pid8 len8) s.env.operand = false)
    (k : List Byte → List Byte → List Byte → Result) :
    s.withStrings a.toNat len8.toNat w.toNat k = .next (s.respond .illegalCommand .nothing) := by
  rcases withStrings_cases s a.toNat len8.toNat w.toNat k with ⟨x, y, z, hd, hx, hy, hz, _⟩ | he
  · simp [hd, operandFits_encode_strings, hx, hy, hz] at h
  · exact he

/-! ### A = 0 -/

/-- ENCODE with A = 0 fails the operand check or the check of A, both with IllegalCommand (R122). -/
theorem execEncode_zero (w : BitVec 2) (noack : Bool) (pid8 len8 : BitVec 8) (s : State) :
    execEncode w 0 noack pid8 len8 s = .next (s.respond .illegalCommand .nothing) := by
  unfold execEncode
  rcases withStrings_cases s (0 : BitVec 4).toNat len8.toNat w.toNat _ with ⟨_, _, _, _, _, _, _, he⟩ | he
  · rw [he, if_pos rfl, raise_eq]
  · exact he

/-- DECODE with A = 0 fails the operand check or the check of A, both with IllegalCommand (R122). -/
theorem execDecode_zero (w : BitVec 2) (raw : Bool) (tries : BitVec 8) (s : State) :
    execDecode w 0 raw tries s = .next (s.respond .illegalCommand .nothing) := by
  unfold execDecode
  rcases withBits_cases s _ with ⟨_, _, he⟩ | ⟨_, he⟩
  · rw [he, if_pos rfl, raise_eq]
  · exact he

end Sys2Proof.Machine

open Sys2Proof Sys2Proof.Machine

/-- Settles O6: whichever of its two checks ENCODE or DECODE fails first, the answer is the same. -/
theorem zeroAddressLengthAnswersIllegal : Obligations.ZeroAddressLengthAnswersIllegal :=
  fun s w b p l => ⟨execEncode_zero w b p l s, execDecode_zero w b p s⟩

/-- Settles O8, by the kind of operand each command wants. -/
theorem wrongOperandAnswersIllegal : Obligations.WrongOperandAnswersIllegal := by
  intro i s h
  cases i with
  | crcSeqW0 | crc8 | crc16 | crcSeqW3 | decode | pushCand => exact withBits_of_not_fits (fun _ => rfl) h _
  | crcInit | crcShift | crcRead | cfgRead | start | stop | connect | pop => exact withEmpty_of_not_fits rfl h _
  | cfgWrite => exact withWord_of_not_fits (fun _ => rfl) h _
  | encode => exact withStrings_of_not_fits h _

end

section
/-! The frame bit format (R101): what a successful Encode answers, field by field; O21. -/

namespace Sys2Proof.Machine

/-- A successful Encode answers the covered bits with the CRC bytes behind them (R171). -/
theorem encodeFrame_ok {addr payload crcb : List Byte} {pid8 len8 w : Nat} {noack : Bool} {out : Bits}
    (h : encodeFrame addr payload crcb pid8 len8 w noack = .ok out) :
    out = headerBits addr payload len8 pid8 noack ++ bytesToBits crcb := by
  unfold encodeFrame at h
  split at h
  next => cases h
  next =>
    split at h
    next => cases h
    next => split at h <;> cases h; rfl

/-- Between a first part of `i` bits and the rest stands a middle part of `n` bits, however the whole is written. -/
theorem slice_of_eq_append {out s t u : Bits} {i n : Nat} (h : out = s ++ (t ++ u)) (hi : s.length = i)
    (hn : t.length = n) : slice out i n = t := by
  rw [h, slice_middle s t u i n hi hn]

theorem bitAt_of_eq_append {out s u : Bits} {b : Bool} {i : Nat} (h : out = s ++ b :: u) (hi : s.length = i) :
    bitAt out i = b := by
  subst h hi
  simp [bitAt]

end Sys2Proof.Machine

open Sys2Proof Sys2Proof.Machine

/-- Settles O21: each field is cut out of the frame's parts in their order. -/
theorem frameLayout : Obligations.FrameLayout := by
  rintro addr payload crcb pid8 _ _ noack out rfl rfl h
  obtain rfl := encodeFrame_ok h
  have haddr := bytesToBits_length addr
  have hpay := bytesToBits_length payload
  have hcrc := bytesToBits_length crcb
  have hlen := bitsOf_length 6 payload.length
  have hpid := bitsOf_length 2 pid8
  refine ⟨by simp, ?_⟩
  unfold headerBits
  generalize bytesToBits addr = A, bitsOf 6 payload.length = L, bitsOf 2 pid8 = P, bytesToBits payload = D,
    bytesToBits crcb = C at *
  refine ⟨?addr, ?len, ?pid, ?noack, ?payload, ?crc⟩
  case addr => exact slice_of_eq_append (s := []) (u := L ++ P ++ [noack] ++ D ++ C) (by simp) rfl haddr
  case len => exact slice_of_eq_append (s := A) (u := P ++ [noack] ++ D ++ C) (by simp) haddr hlen
  case pid => exact slice_of_eq_append (s := A ++ L) (u := [noack] ++ D ++ C) (by simp) (by simp [*]) hpid
  case noack => exact bitAt_of_eq_append (s := A ++ L ++ P) (u := D ++ C) (by simp) (by simp [*])
  case payload =>
    exact slice_of_eq_append (s := A ++ L ++ P ++ [noack]) (u := C) (by simp) (by simp [*]) hpay
  case crc =>
    exact slice_of_eq_append (s := A ++ L ++ P ++ [noack] ++ D) (u := []) (by simp) (by simp [*]; omega) hcrc

end

section
/-! The LFSR of R142 as a circuit and as an affine map over GF(2) (R152); O10 and O18. -/

namespace Sys2Proof.Machine

/-! ### One step -/

theorem crcStep_eq_ite (p r : BitVec n) (b : Bool) :
    crcStep p r b = if r.msb ≠ b then (r <<< 1) ^^^ p else r <<< 1 := by
  rcases crcStep_cases p r b with ⟨h, e⟩ | ⟨h, e⟩
  · rw [e, if_pos h]
  · rw [e, if_neg (not_not_intro h)]

/-- The step as a circuit: each bit takes the bit below it, XOR the feedback where the polynomial has a 1 (R142). -/
theorem getLsbD_crcStep (p r : BitVec n) (b : Bool) {i : Nat} (hi : i < n) :
    (crcStep p r b).getLsbD i =
      ((decide (0 < i) && r.getLsbD (i - 1)) ^^ ((r.getLsbD (n - 1) ^^ b) && p.getLsbD i)) := by
  have hmsb : r.msb = r.getLsbD (n - 1) := BitVec.msb_eq_getLsbD_last r
  have hshift : (r <<< 1).getLsbD i = (decide (0 < i) && r.getLsbD (i - 1)) := by
    rw [BitVec.getLsbD_shiftLeft]
    cases i <;> simp [hi]
  rcases crcStep_cases p r b with ⟨h, e⟩ | ⟨h, e⟩ <;> rw [hmsb] at h
  · rw [e, BitVec.getLsbD_xor, hshift, Bool.eq_not.mpr h]
    simp
  · rw [e, hshift, h]
    simp

/-- The CRC8 polynomial x^8 + x^2 + x + 1 has its low taps at the bits 0, 1 and 2 (R141). -/
theorem crc8Poly_taps : ∀ i, i < 8 → crc8Poly.getLsbD i = decide (i = 0 ∨ i = 1 ∨ i = 2) := by decide

/-- The CRC16 polynomial x^16 + x^12 + x^5 + 1 has its low taps at the bits 0, 5 and 12 (R141). -/
theorem crc16Poly_taps : ∀ i, i < 16 → crc16Poly.getLsbD i = decide (i = 0 ∨ i = 5 ∨ i = 12) := by decide

/-- A circuit whose polynomial has its taps at the bits 0, `j` and `k`. -/
theorem getLsbD_crcStep_of_taps {p : BitVec n} {j k i : Nat} (r : BitVec n) (b : Bool) (hi : i < n)
    (htaps : p.getLsbD i = decide (i = 0 ∨ i = j ∨ i = k)) :
    (crcStep p r b).getLsbD i =
      if i = 0 then (r.getLsbD (n - 1) ^^ b)
      else if i = j ∨ i = k then (r.getLsbD (i - 1) ^^ (r.getLsbD (n - 1) ^^ b)) else r.getLsbD (i - 1) := by
  rw [getLsbD_crcStep p r b hi, htaps]
  by_cases h0 : i = 0
  · simp [h0]
  · by_cases hjk : i = j ∨ i = k <;> simp [h0, hjk, Nat.pos_of_ne_zero h0]

/-! ### The step as a map of the register -/

/-- With the constant term in the polynomial, a step that leaves 0 fed nothing back, and so only shifted. -/
theorem eq_zero_of_crcStep_false_eq_zero {p r : BitVec n} (hp : p.getLsbD 0 = true) (h : crcStep p r false = 0#n) :
    r = 0#n := by
  have hn : 0 < n := BitVec.lt_of_getLsbD hp
  have bits {i : Nat} (hi : i < n) := getLsbD_crcStep p r false hi
  simp only [h, BitVec.getLsbD_zero, Bool.xor_false] at bits
  have htop : r.getLsbD (n - 1) = false := by simpa [hp] using (bits hn).symm
  apply BitVec.eq_of_getLsbD_eq
  intro i hi
  rw [BitVec.getLsbD_zero]
  by_cases hlast : i = n - 1
  · rw [hlast, htop]
  · simpa [htop] using (bits (show i + 1 < n by omega)).symm

/-- No two registers take one input bit to the same register. -/
theorem crcStep_injective {p : BitVec n} (hp : p.getLsbD 0 = true) (b : Bool) :
    Function.Injective fun r => crcStep p r b := by
  intro r q h
  have hxor := crcStep_xor p r q b b
  rw [show crcStep p r b = crcStep p q b from h, BitVec.xor_self, Bool.xor_self] at hxor
  exact BitVec.xor_eq_zero_iff.mp (eq_zero_of_crcStep_false_eq_zero hp hxor.symm)

/-- The two input bits take a register to different registers: they differ by the polynomial. -/
theorem crcStep_not_ne {p : BitVec n} (hp : p.getLsbD 0 = true) (r : BitVec n) (b : Bool) :
    crcStep p r (!b) ≠ crcStep p r b := by
  intro h
  have hn : 0 < n := BitVec.lt_of_getLsbD hp
  have h0 := congrArg (·.getLsbD 0) h
  simp [getLsbD_crcStep _ _ _ hn, hp] at h0

/-! ### A sequence of steps -/

/-- The steps over a sequence are affine over GF(2) (R152). -/
theorem foldl_crcStep_xor (p : BitVec n) : ∀ (s t : Bits) (r q : BitVec n), s.length = t.length →
    s.foldl (crcStep p) r ^^^ t.foldl (crcStep p) q =
      (List.zipWith (fun a b => a ^^ b) s t).foldl (crcStep p) (r ^^^ q)
  | [], [], _, _, _ => rfl
  | a :: s, b :: t, r, q, h => by
    simp only [List.foldl_cons, List.zipWith_cons_cons, ← crcStep_xor]
    exact foldl_crcStep_xor p s t _ _ (Nat.succ.inj h)

/-- Two registers that differ stay different over any sequence. -/
theorem foldl_crcStep_injective {p : BitVec n} (hp : p.getLsbD 0 = true) :
    ∀ s : Bits, Function.Injective (s.foldl (crcStep p))
  | [] => Function.injective_id
  | b :: s => (foldl_crcStep_injective hp s).comp (crcStep_injective hp b)

/-- Flipping one bit of the sequence changes the register behind it, and every register from there on. -/
theorem foldl_crcStep_flip_ne {p : BitVec n} (hp : p.getLsbD 0 = true) :
    ∀ (s : Bits) (i : Nat) (h : i < s.length) (r : BitVec n),
      (s.set i (!s[i])).foldl (crcStep p) r ≠ s.foldl (crcStep p) r
  | b :: s, 0, _, r => (foldl_crcStep_injective hp s).ne (crcStep_not_ne hp r b)
  | b :: s, i + 1, h, r => foldl_crcStep_flip_ne hp s i (Nat.lt_of_succ_lt_succ h) (crcStep p r b)

end Sys2Proof.Machine

open Sys2Proof Sys2Proof.Machine

/-- Settles O10: both polynomials' taps put into the circuit of the general step. -/
theorem crcStepIsGaloisLfsr : Obligations.CrcStepIsGaloisLfsr :=
  ⟨fun r b => ⟨crcStep_eq_ite crc8Poly r b, fun i hi => getLsbD_crcStep_of_taps r b hi (crc8Poly_taps i hi)⟩,
    fun r b => ⟨crcStep_eq_ite crc16Poly r b, fun i hi => getLsbD_crcStep_of_taps r b hi (crc16Poly_taps i hi)⟩⟩

/-- Settles O18: the initial registers cancel in the difference, and both polynomials have the constant term that makes
every step injective. -/
theorem crcDetectsSingleBitChanges : Obligations.CrcDetectsSingleBitChanges := by
  refine ⟨fun s t h => ⟨?crc8, ?crc16⟩, fun s i h => ⟨?flip8, ?flip16⟩⟩
  case crc8 => rw [crc8, crc8, foldl_crcStep_xor _ _ _ _ _ h, BitVec.xor_self]; rfl
  case crc16 => rw [crc16, crc16, foldl_crcStep_xor _ _ _ _ _ h, BitVec.xor_self]; rfl
  case flip8 => exact foldl_crcStep_flip_ne (by decide) s i h crc8Init
  case flip16 => exact foldl_crcStep_flip_ne (by decide) s i h crc16Init

end

section
/-! The commands of the CRC unit (R145 to R150) and the streaming register over a CRC_STREAM (R151); O11 to O17. -/

namespace Sys2Proof.Machine

/-! ### The commands on the operand they want -/

theorem withEmpty_of_empty {s : State} (h : s.env.operand = .empty) (r : Result) : s.withEmpty r = r := by
  rcases withEmpty_cases s r with ⟨_, e⟩ | ⟨hne, _⟩
  · exact e
  · exact absurd h hne

theorem withEmpty_of_ne_empty {s : State} (h : s.env.operand ≠ .empty) (r : Result) :
    s.withEmpty r = .next (s.respond .illegalCommand .nothing) := by
  rcases withEmpty_cases s r with ⟨he, _⟩ | ⟨_, e⟩
  · exact absurd he h
  · exact e

theorem withBits_of_bits {s : State} {b : Bits} (h : s.env.operand = .bits b) (k : Bits → Result) :
    s.withBits k = k b := by
  rcases withBits_cases s k with ⟨c, hc, e⟩ | ⟨hne, _⟩
  · obtain rfl : b = c := Operand.bits.inj (h.symm.trans hc)
    exact e
  · exact absurd h (hne b)

theorem withBits_of_not_bits {s : State} (h : ∀ b, s.env.operand ≠ .bits b) (k : Bits → Result) :
    s.withBits k = .next (s.respond .illegalCommand .nothing) := by
  rcases withBits_cases s k with ⟨b, hb, _⟩ | ⟨_, e⟩
  · exact absurd hb (h b)
  · exact e

theorem exec_crc8 {s : State} {b : Bits} (h : s.env.operand = .bits b) :
    exec .crc8 s = .next (s.respond .ok (.word ((crc8 b).setWidth 32))) := withBits_of_bits h _

theorem exec_crc16 {s : State} {b : Bits} (h : s.env.operand = .bits b) :
    exec .crc16 s = .next (s.respond .ok (.word ((crc16 b).setWidth 32))) := withBits_of_bits h _

theorem exec_crcInit {s : State} (h : s.env.operand = .empty) (w : BitVec 2) :
    exec (.crcInit w) s = s.storeCrc (CrcUnit.init w) := withEmpty_of_empty h _

theorem exec_crcShift {s : State} (h : s.env.operand = .empty) (b : Bool) :
    exec (.crcShift b) s = s.storeCrc (s.crc.shift b) := withEmpty_of_empty h _

theorem exec_crcRead {s : State} (h : s.env.operand = .empty) :
    exec .crcRead s = s.answer (s.crc.read.map .word) := withEmpty_of_empty h _

/-- CRC_INIT reads nothing of the streaming register and answers the same each time (R148). -/
theorem exec_crcInit_again {w : BitVec 2} {s t : State} (h : exec (.crcInit w) s = .next t) :
    exec (.crcInit w) t = .next t := by
  by_cases hd : s.env.operand = .empty
  · rw [exec_crcInit hd] at h
    rcases storeCrc_cases s (CrcUnit.init w) with ⟨u, hu, e⟩ | ⟨x, hx, e⟩ <;> cases e.symm.trans h
    · rw [exec_crcInit (by exact hd), hu]; rfl
    · rw [exec_crcInit (by exact hd), hx]; rfl
  · cases (withEmpty_of_ne_empty hd _).symm.trans h
    exact withEmpty_of_ne_empty (by exact hd) _

/-! ### The streaming register of each width -/

/-- The streaming register while it holds a CRC8: the high byte is 0 (R22). -/
def CrcUnit.ofByte (r : BitVec 8) : CrcUnit := ⟨r.setWidth 16, .byte⟩

/-- The streaming register while it holds a CRC16. -/
def CrcUnit.ofHalf (r : BitVec 16) : CrcUnit := ⟨r, .half⟩

theorem shift_of_unconfigured {u : CrcUnit} (h : u.width = .unconfigured) (b : Bool) :
    u.shift b = .error .invalidState := by
  rw [CrcUnit.shift, h]

/-- A CRC8 shift keeps the low byte alone (R149). -/
theorem shift_of_byte {u : CrcUnit} (h : u.width = .byte) (b : Bool) :
    u.shift b = .ok (.ofByte (crcStep crc8Poly (u.reg.setWidth 8) b)) := by
  rw [CrcUnit.shift, h]; rfl

theorem shift_of_half {u : CrcUnit} (h : u.width = .half) (b : Bool) :
    u.shift b = .ok (.ofHalf (crcStep crc16Poly u.reg b)) := by
  rw [CrcUnit.shift, h]; rfl

theorem read_of_unconfigured {u : CrcUnit} (h : u.width = .unconfigured) : u.read = .error .invalidState := by
  rw [CrcUnit.read, h]

theorem read_of_byte {u : CrcUnit} (h : u.width = .byte) : u.read = .ok ((u.reg.setWidth 8).setWidth 32) := by
  rw [CrcUnit.read, h]

theorem read_of_half {u : CrcUnit} (h : u.width = .half) : u.read = .ok (u.reg.setWidth 32) := by
  rw [CrcUnit.read, h]

@[simp] theorem ofByte_low (r : BitVec 8) : (CrcUnit.ofByte r).reg.setWidth 8 = r := by
  simp [CrcUnit.ofByte]

theorem ofByte_reg_lt (r : BitVec 8) : (CrcUnit.ofByte r).reg.toNat < 256 := by
  rw [CrcUnit.ofByte, BitVec.toNat_setWidth_of_le (by decide)]
  exact r.isLt

/-! ### Streams -/

/-- CRC_INIT `w` starts a stream at `init`: `hold` is how the unit keeps the LFSR register of polynomial `p`, and a shift
and a read act on that register (R148 to R150). -/
structure Streams (w : BitVec 2) (p init : BitVec n) (hold : BitVec n → CrcUnit) : Prop where
  init_eq : CrcUnit.init w = .ok (hold init)
  shift_hold (r : BitVec n) (b : Bool) : (hold r).shift b = .ok (hold (crcStep p r b))
  read_hold (r : BitVec n) : (hold r).read = .ok (r.setWidth 32)

theorem streams_byte : Streams 1 crc8Poly crc8Init .ofByte where
  init_eq := rfl
  shift_hold r b := by rw [shift_of_byte rfl, ofByte_low]
  read_hold r := by rw [read_of_byte rfl, ofByte_low]

theorem streams_half : Streams 2 crc16Poly crc16Init .ofHalf where
  init_eq := rfl
  shift_hold _ _ := shift_of_half rfl _
  read_hold _ := read_of_half rfl

theorem runCommands_cons_of_next {i : Instr} {d : Operand} {cs : List (Instr × Operand)} {s t : State}
    (h : issue i d s = .next t) : runCommands ((i, d) :: cs) s = runCommands cs t := by
  rw [runCommands, h, andThen]

theorem runCommands_append_of_next {cs : List (Instr × Operand)} {t : State} :
    ∀ {bs : List (Instr × Operand)} {s : State}, runCommands bs s = .next t →
      runCommands (bs ++ cs) s = runCommands cs t
  | [], _, h => by cases h; rfl
  | c :: bs, s, h => by
    rw [runCommands] at h
    rw [List.cons_append, runCommands]
    cases hc : issue c.1 c.2 s <;> rw [hc] at h
    case next u => exact runCommands_append_of_next (bs := bs) h
    all_goals cases h

/-- CRC_INIT `w` and one CRC_SHIFT for each bit: a CRC_STREAM before its read. -/
def crcFeed (w : BitVec 2) (b : Bits) : List (Instr × Operand) :=
  (.crcInit w, .empty) :: b.map fun x => (.crcShift x, .empty)

theorem crcStream_eq (w : BitVec 2) (b : Bits) : crcStream w b = crcFeed w b ++ [(.crcRead, .empty)] := rfl

namespace Streams

variable {w : BitVec 2} {p init : BitVec n} {hold : BitVec n → CrcUnit}

/-- The shifts of a sequence take the held register through its LFSR steps (R143, R149). -/
theorem runCommands_shifts (hs : Streams w p init hold) :
    ∀ (b : Bits) (r : BitVec n) (s : State), s.crc = hold r →
      ∃ t, runCommands (b.map fun x => (.crcShift x, .empty)) s = .next t ∧ t.crc = hold (b.foldl (crcStep p) r)
  | [], _, s, h => ⟨s, rfl, h⟩
  | x :: b, r, s, h => by
    have hx : issue (.crcShift x) .empty s =
        .next ({ s.present .empty with crc := hold (crcStep p r x) }.respond .ok .nothing) := by
      rw [issue, exec_crcShift rfl, State.present_crc, h, hs.shift_hold]; rfl
    rw [List.map_cons, runCommands_cons_of_next hx]
    exact hs.runCommands_shifts b _ _ rfl

/-- Whatever the unit held before, CRC_INIT and the shifts of a sequence leave the register its CRC folds (R148). -/
theorem runCommands_crcFeed (hs : Streams w p init hold) (b : Bits) (s : State) :
    ∃ t, runCommands (crcFeed w b) s = .next t ∧ t.crc = hold (b.foldl (crcStep p) init) := by
  have hi : issue (.crcInit w) .empty s = .next ({ s.present .empty with crc := hold init }.respond .ok .nothing) := by
    rw [issue, exec_crcInit rfl, hs.init_eq]; rfl
  rw [crcFeed, runCommands_cons_of_next hi]
  exact hs.runCommands_shifts b _ _ rfl

/-- A CRC_STREAM answers the LFSR register behind the sequence (R151). -/
theorem runCommands_crcStream (hs : Streams w p init hold) (b : Bits) (s : State) :
    ∃ t, runCommands (crcStream w b) s = .next t ∧
      t.env.response = some ⟨.ok, .word ((b.foldl (crcStep p) init).setWidth 32)⟩ := by
  obtain ⟨t, et, ht⟩ := hs.runCommands_crcFeed b s
  have hread : issue .crcRead .empty t =
      .next ((t.present .empty).respond .ok (.word ((b.foldl (crcStep p) init).setWidth 32))) := by
    rw [issue, exec_crcRead rfl, State.present_crc, ht, hs.read_hold]; rfl
  rw [crcStream_eq, runCommands_append_of_next et, runCommands_cons_of_next hread]
  exact ⟨_, rfl, rfl⟩

end Streams

/-! ### Reserved bits -/

/-- A CRC_SEQ word of any form with a reserved bit set is no command (R121). -/
theorem command_crcSeq_of_reserved (w : Word) (s : State) (hop : field w 28 4 = 1) (hz : field w 0 26 ≠ 0) :
    s.command w = .next (s.respond .illegalCommand .nothing) :=
  command_of_error s w _ ((rejectedWordsExactly w).2.mpr (.inl ⟨.inl hop, hz⟩))

end Sys2Proof.Machine

open Sys2Proof Sys2Proof.Machine

/-- Settles O17: each width's stream holds the register that the CRC of the sequence folds. -/
theorem streamingEqualsSequence : Obligations.StreamingEqualsSequence :=
  fun s b => ⟨streams_byte.runCommands_crcStream b s, streams_half.runCommands_crcStream b s⟩

/-- Settles O11: the command answers the fold of the step over its sequence, so one more bit is one more step. -/
theorem crc8Command : Obligations.Crc8Command :=
  ⟨decodeInvertsEncode .crc8, fun _ _ => exec_crc8, fun _ h => withBits_of_not_bits h _, command_crcSeq_of_reserved,
    fun _ _ => List.foldl_concat .., rfl, by decide, by decide⟩

/-- Settles O12, as O11 with the CRC16 polynomial; the two sequences of R146 are run through the LFSR. -/
theorem crc16Command : Obligations.Crc16Command :=
  ⟨decodeInvertsEncode .crc16, fun _ _ => exec_crc16, fun _ h => withBits_of_not_bits h _, command_crcSeq_of_reserved,
    fun _ _ => List.foldl_concat .., rfl, by decide +kernel, by decide +kernel⟩

/-- Settles O13: neither form reads its sequence. -/
theorem crcSeqUnsupportedLength : Obligations.CrcSeqUnsupportedLength :=
  ⟨decodeInvertsEncode .crcSeqW0, decodeInvertsEncode .crcSeqW3,
    fun _ _ h => ⟨withBits_of_bits h _, withBits_of_bits h _⟩, command_crcSeq_of_reserved⟩

/-- Settles O14: CRC_INIT stores a unit that depends on its width alone, or fails and stores nothing. -/
theorem crcInitCommand : Obligations.CrcInitCommand := by
  refine ⟨decodeInvertsEncode (.crcInit 1), decodeInvertsEncode (.crcInit 2),
    fun s h => ⟨exec_crcInit h 1, exec_crcInit h 2, exec_crcInit h 0, exec_crcInit h 3⟩, ?reserved,
    fun w s t => exec_crcInit_again, ?worked⟩
  case reserved =>
    exact fun w s hop hz => command_of_error s w _ ((rejectedWordsExactly w).2.mpr (.inl ⟨.inr hop, hz⟩))
  case worked =>
    intro s t h
    cases (exec_crcInit rfl 2).symm.trans h
    show place crc16Init 0 ||| place CrcWidth.half.code 16 = 0x0002FFFF
    decide

/-- Settles O15: the example is a CRC8 stream of one bit without its read. -/
theorem crcShiftCommand : Obligations.CrcShiftCommand := by
  refine ⟨decodeInvertsEncode (.crcShift false), decodeInvertsEncode (.crcShift true), ?widths, ?reserved, ?worked⟩
  case widths =>
    intro s b hd
    rw [exec_crcShift hd]
    refine ⟨fun hw => ?_, fun hw => ?_, fun hw => ?_⟩
    · rw [shift_of_unconfigured hw]; rfl
    · rw [shift_of_byte hw]
      exact ⟨{ s with crc := .ofByte (crcStep crc8Poly (s.crc.reg.setWidth 8) b) }, rfl, rfl, ofByte_reg_lt _,
        ofByte_low _⟩
    · rw [shift_of_half hw]; rfl
  case reserved =>
    exact fun w s hop hz => command_of_error s w _ ((rejectedWordsExactly w).2.mpr (.inr (.inl ⟨hop, hz⟩)))
  case worked =>
    intro s t h
    obtain ⟨u, e, hu⟩ := streams_byte.runCommands_crcFeed [false] s
    cases e.symm.trans h
    rw [hu]
    decide

/-- Settles O16: the example is a CRC16 stream of one bit. -/
theorem crcReadCommand : Obligations.CrcReadCommand := by
  refine ⟨decodeInvertsEncode .crcRead, ?widths, ?reserved, ?worked⟩
  case widths =>
    intro s hd
    rw [exec_crcRead hd]
    refine ⟨fun hw => ?_, fun hw => ?_, fun hw => ?_⟩
    · rw [read_of_unconfigured hw]; rfl
    · rw [read_of_byte hw]; rfl
    · rw [read_of_half hw]; rfl
  case reserved =>
    exact fun w s hop hz =>
      command_of_error s w _ ((rejectedWordsExactly w).2.mpr (.inr (.inr (.inl ⟨.inl hop, hz⟩))))
  case worked => exact fun s => (streamingEqualsSequence s [true]).2

end

section
/-! The preamble search (R177 to R179): the first entries of an ascending list, told by counting; O22. -/

namespace Sys2Proof.Machine

/-- The first `t` entries of an ascending list are those with fewer than `t` entries below them. -/
theorem mem_take_iff_of_pairwise_lt {i : Nat} : ∀ {l : List Nat} (_ : l.Pairwise (· < ·)) (t : Nat),
    i ∈ l.take t ↔ i ∈ l ∧ (l.filter (· < i)).length < t
  | [], _, t => by simp
  | x :: xs, _, 0 => by simp
  | x :: xs, hl, t + 1 => by
    obtain ⟨hx, hxs⟩ := List.pairwise_cons.mp hl
    rw [List.take_succ_cons, List.mem_cons, List.mem_cons, mem_take_iff_of_pairwise_lt hxs t]
    by_cases hi : i = x
    · have none_below : xs.filter (· < i) = [] :=
        List.filter_eq_nil_iff.mpr fun y hy => by simpa [hi] using (hx y hy).le
      simp [hi ▸ none_below, hi]
    · by_cases hmem : i ∈ xs
      · simp [hi, hmem, hx i hmem]
      · simp [hi, hmem]

theorem mem_preambleOffsets {s : Bits} {i : Nat} :
    i ∈ preambleOffsets s ↔ i + 8 ≤ s.length ∧ slice s i 8 = Config.params.preamble := by
  simp only [preambleOffsets, List.mem_filter, List.mem_range, beq_iff_eq, params_preamble_length]
  exact and_congr_left' (by omega)

theorem preambleOffsets_pairwise_lt (s : Bits) : (preambleOffsets s).Pairwise (· < ·) :=
  List.pairwise_lt_range.filter _

end Sys2Proof.Machine

open Sys2Proof Sys2Proof.Machine

/-- Settles O22: the occurrences are filtered out of an ascending range, so the first T can be told by counting. -/
theorem preambleSearch : Obligations.PreambleSearch :=
  ⟨fun _ _ => mem_preambleOffsets, preambleOffsets_pairwise_lt, by decide, fun _ _ => rfl,
    fun s t _ => mem_take_iff_of_pairwise_lt (preambleOffsets_pairwise_lt s) t, fun _ _ => rfl⟩

end

section
/-! What one candidate gives (R182 to R188), exactly: the status it raises and the frame it accepts; O24 and O28. -/

namespace Sys2Proof.Machine

/-! ### The parts of a candidate -/

/-- The bits the CRC covers, from field base `q` (R103, R185). -/
def coveredBits (s : Bits) (a q : Nat) : Bits := slice s q (8 * a + 9 + 8 * lengthField s a q)

/-- The CRC field of the candidate at field base `q` (R187). -/
def crcField (s : Bits) (a c q : Nat) : Bits := slice s (q + 8 * a + 9 + 8 * lengthField s a q) (8 * c)

/-- The bits from field base `q` are accepted as frame `f`: they pass the length checks, the CRC field holds the CRC of
the covered bits, and `f` is the frame of the fields (R182 to R188). -/
structure Accepts (s : Bits) (a c q : Nat) (f : Frame) : Prop where
  length_le : lengthField s a q ≤ 32
  fields_in : q + 8 * a + 9 + 8 * lengthField s a q + 8 * c ≤ s.length
  crc_match : crcOf c (coveredBits s a q) = .ok (uint (crcField s a c q))
  frame_eq : f = frameAt s a c q (lengthField s a q) (uint (crcField s a c q))

theorem Accepts.fits {s : Bits} {a c off : Nat} {f : Frame} (h : Accepts s a c (off + 8) f) : Fits s a c off := by
  obtain ⟨hlen, hin, _, _⟩ := h
  exact ⟨by omega, hlen, hin⟩

/-! ### The outcomes of a candidate -/

theorem crcOf_eq_ok_iff {c v : Nat} {s : Bits} :
    crcOf c s = .ok v ↔ (c = 1 ∧ (crc8 s).toNat = v) ∨ (c = 2 ∧ (crc16 s).toNat = v) := by
  rcases crcOf_cases c s with ⟨rfl, h⟩ | ⟨rfl, h⟩ | ⟨h1, h2, h⟩
  · simp [h]
  · simp [h]
  · simp [h, h1, h2]

theorem tryCandidate_eq_some_iff {s : Bits} {a c off : Nat} {f : Frame} :
    tryCandidate false s a c off = .ok (some f) ↔ Accepts s a c (off + 8) f := by
  constructor
  · intro h
    obtain ⟨hfits, hc, -⟩ := tryCandidate_some h
    obtain ⟨v, hv⟩ : ∃ v, crcOf c (coveredBits s a (off + 8)) = .ok v := by
      rcases hc with rfl | rfl <;> exact ⟨_, rfl⟩
    rw [(tryCandidate_of_fits s a c off hfits).2 v hv] at h
    split at h <;> cases h
    next hgot =>
      obtain ⟨_, hlen, hin⟩ := hfits
      exact ⟨hlen, hin, hgot ▸ hv, rfl⟩
  · intro h
    rw [h.frame_eq]
    exact ((tryCandidate_of_fits s a c off h.fits).2 _ h.crc_match).trans (if_pos rfl)

/-- The only status a candidate raises is that of an unsupported CRC length, after its length checks (R185). -/
theorem tryCandidate_eq_error_iff {s : Bits} {a c off : Nat} {e : Status} :
    tryCandidate false s a c off = .error e ↔
      Fits s a c off ∧ c ≠ 1 ∧ c ≠ 2 ∧ e = .unsupportedCrcLength := by
  by_cases hfits : Fits s a c off
  · obtain ⟨hfail, hmatch⟩ := tryCandidate_of_fits s a c off hfits
    have no_error {v} (hv : crcOf c (coveredBits s a (off + 8)) = .ok v) :
        tryCandidate false s a c off ≠ .error e := by
      rw [hmatch v hv]
      split <;> nofun
    rcases crcOf_cases c (coveredBits s a (off + 8)) with ⟨hc, hv⟩ | ⟨hc, hv⟩ | ⟨h1, h2, he⟩
    · exact iff_of_false (no_error hv) fun ⟨_, h1, _, _⟩ => h1 hc
    · exact iff_of_false (no_error hv) fun ⟨_, _, h2, _⟩ => h2 hc
    · simp [hfail _ he, hfits, h1, h2, eq_comm]
  · simp [tryCandidate_of_not_fits s a c off hfits, hfits]

/-- A candidate that neither raises nor is accepted is passed over (R184, R187). -/
theorem tryCandidate_eq_none {s : Bits} {a c off : Nat} (hc : c = 1 ∨ c = 2)
    (h : ∀ f, ¬ Accepts s a c (off + 8) f) : tryCandidate false s a c off = .ok none := by
  match hr : tryCandidate false s a c off with
  | .ok none => rfl
  | .ok (some f) => exact absurd (tryCandidate_eq_some_iff.mp hr) (h f)
  | .error e =>
    obtain ⟨_, h1, h2, _⟩ := tryCandidate_eq_error_iff.mp hr
    exact absurd hc (not_or.mpr ⟨h1, h2⟩)

/-! ### The fields of the frame -/

theorem eq_ofNat_iff_toNat_eq {n u : Nat} {p : BitVec n} (h : u < 2 ^ n) : p = BitVec.ofNat n u ↔ p.toNat = u := by
  rw [← BitVec.toNat_inj, BitVec.toNat_ofNat, Nat.mod_eq_of_lt h]

theorem eq_bitAt_iff {s : Bits} {i : Nat} {b : Bool} (h : i < s.length) : b = bitAt s i ↔ some b = s[i]? := by
  simp [bitAt, h]

/-- The frame of fields inside the sequence, field by field: its CRC is the CRC field's bytes as they stand (R188). -/
theorem eq_frameAt_iff {s k : Bits} {a c q len : Nat} {f : Frame} (hin : q + 8 * a + 9 ≤ s.length)
    (hc : c = 1 ∨ c = 2) (hk : k.length = 8 * c) :
    f = frameAt s a c q len (uint k) ↔
      f.address = bitsToBytes (slice s q (8 * a)) ∧ f.payloadLength = len ∧
      f.payload = bitsToBytes (slice s (q + 8 * a + 9) (8 * len)) ∧
      f.pid.toNat = uint (slice s (q + 8 * a + 6) 2) ∧ some f.noack = s[q + 8 * a + 8]? ∧ f.crc = bitsToBytes k := by
  have hpid := uint_lt (slice s (q + 8 * a + 6) 2)
  rw [slice_length _ _ 2 (by omega)] at hpid
  rw [← eq_ofNat_iff_toNat_eq hpid, ← eq_bitAt_iff (by omega), ← beBytes_uint c k hc hk]
  cases f
  simp only [frameAt, Frame.mk.injEq]

/-! ### Bits in front of and behind a candidate -/

theorem bitAt_append_left {s : Bits} (t : Bits) {i : Nat} (h : i < s.length) : bitAt (s ++ t) i = bitAt s i :=
  List.getD_append _ _ _ _ h

theorem bitAt_append_right (s t : Bits) (i : Nat) : bitAt (s ++ t) (s.length + i) = bitAt t i := by
  rw [bitAt, List.getD_append_right _ _ _ _ (Nat.le_add_right _ _), Nat.add_sub_cancel_left, bitAt]

/-- Acceptance carries over to any sequence and field base with the same parts. -/
theorem Accepts.transfer {s s' : Bits} {a c q q' : Nat} {f : Frame} (h : Accepts s a c q f)
    (hlen : lengthField s' a q' = lengthField s a q) (hcov : coveredBits s' a q' = coveredBits s a q)
    (hcrc : crcField s' a c q' = crcField s a c q)
    (hframe : frameAt s' a c q' (lengthField s a q) (uint (crcField s a c q)) =
      frameAt s a c q (lengthField s a q) (uint (crcField s a c q)))
    (hin : q' + 8 * a + 9 + 8 * lengthField s a q + 8 * c ≤ s'.length) : Accepts s' a c q' f where
  length_le := hlen ▸ h.length_le
  fields_in := hlen ▸ hin
  crc_match := by rw [hcov, hcrc, h.crc_match]
  frame_eq := by rw [hlen, hcrc, hframe, h.frame_eq]

/-- The field base counts from the address: what stands in front of it is not read (R191). -/
theorem accepts_append_right_iff {s x : Bits} {a c q : Nat} {f : Frame} :
    Accepts (s ++ x) a c (s.length + q) f ↔ Accepts x a c q f := by
  have hlen : lengthField (s ++ x) a (s.length + q) = lengthField x a q := by
    rw [lengthField, Nat.add_assoc, slice_append_right, lengthField]
  have hcov : coveredBits (s ++ x) a (s.length + q) = coveredBits x a q := by
    rw [coveredBits, hlen, slice_append_right, coveredBits]
  have hcrc : crcField (s ++ x) a c (s.length + q) = crcField x a c q := by
    simp only [crcField, hlen, Nat.add_assoc, slice_append_right]
  have hframe (len got : Nat) : frameAt (s ++ x) a c (s.length + q) len got = frameAt x a c q len got := by
    simp only [frameAt, Nat.add_assoc, slice_append_right, bitAt_append_right]
  have hfit := List.length_append (as := s) (bs := x)
  constructor <;> intro h <;> have hin := h.fields_in
  · exact h.transfer hlen.symm hcov.symm hcrc.symm (hframe _ _).symm (by omega)
  · exact h.transfer hlen hcov hcrc (hframe _ _) (by omega)

/-- What stands behind the CRC field is not read (R191). -/
theorem Accepts.append_left {x : Bits} {a c q : Nat} {f : Frame} (h : Accepts x a c q f) (tail : Bits) :
    Accepts (x ++ tail) a c q f := by
  have hin := h.fields_in
  have hlen : lengthField (x ++ tail) a q = lengthField x a q := by
    rw [lengthField, slice_append_left _ _ _ _ (by omega), lengthField]
  have hcov : coveredBits (x ++ tail) a q = coveredBits x a q := by
    rw [coveredBits, hlen, slice_append_left _ _ _ _ (by omega), coveredBits]
  have hcrc : crcField (x ++ tail) a c q = crcField x a c q := by
    rw [crcField, hlen, slice_append_left _ _ _ _ (by omega), crcField]
  refine h.transfer hlen hcov hcrc ?_ (by rw [List.length_append]; omega)
  simp only [frameAt]
  rw [slice_append_left _ _ _ (8 * a) (by omega), slice_append_left _ _ _ (8 * _) (by omega),
    slice_append_left _ _ _ 2 (by omega), bitAt_append_left _ (by omega)]

/-- The non-raw decode: the single candidate at 0, its field base behind 8 bits (R178, R181). -/
theorem decodeFrame_nonraw_eq_ok_iff {pre x : Bits} {a c t : Nat} {f : Frame} (hpre : pre.length = 8) :
    decodeFrame (pre ++ x) a c false t = .ok f ↔ Accepts x a c 0 f := by
  rw [← accepts_append_right_iff (s := pre), hpre, ← tryCandidate_eq_some_iff (off := 0)]
  show firstFrame false (pre ++ x) a c [0] = .ok f ↔ _
  unfold firstFrame
  split
  next h => simp [h]
  next h => simp [h]
  next h => simp [h, firstFrame]

end Sys2Proof.Machine

open Sys2Proof Sys2Proof.Machine

/-- Settles O24: acceptance with the CRC by its length and the frame by its fields. -/
theorem candidateAcceptance : Obligations.CandidateAcceptance := by
  intro s a c off f
  rw [tryCandidate_eq_some_iff]
  constructor
  · intro h
    obtain ⟨hlast, hlen, hin⟩ := h.fits
    have hcrc := crcOf_eq_ok_iff.mp h.crc_match
    have hc : c = 1 ∨ c = 2 := hcrc.imp And.left And.left
    refine ⟨⟨hlast, hlen, hin, ?_⟩, (eq_frameAt_iff (by omega) hc (slice_length _ _ _ hin)).mp h.frame_eq⟩
    rcases hcrc with ⟨rfl, hv⟩ | ⟨rfl, hv⟩
    · exact .inl ⟨rfl, hv⟩
    · exact .inr ⟨rfl, hv⟩
  · rintro ⟨⟨hlast, hlen, hin, hcrc⟩, hfields⟩
    have hmatch : (c = 1 ∨ c = 2) ∧ crcOf c (coveredBits s a (off + 8)) = .ok (uint (crcField s a c (off + 8))) := by
      rcases hcrc with ⟨rfl, hv⟩ | ⟨rfl, hv⟩
      · exact ⟨.inl rfl, congrArg Except.ok hv⟩
      · exact ⟨.inr rfl, congrArg Except.ok hv⟩
    obtain ⟨hc, hmatch⟩ := hmatch
    exact ⟨hlen, hin, hmatch, (eq_frameAt_iff (by omega) hc (slice_length _ _ _ hin)).mpr hfields⟩

/-- Settles O28: acceptance is a matter of the bits from the address to the CRC field. -/
theorem outsideBitsAreNotRead : Obligations.OutsideBitsAreNotRead := by
  intro pre pre' body tail a c t t' f hpre hpre' h
  rw [List.append_assoc, decodeFrame_nonraw_eq_ok_iff hpre']
  exact ((decodeFrame_nonraw_eq_ok_iff hpre).mp h).append_left tail

end

section
/-! The candidates in order (R180, R185, R189): the first that is not passed over decides; O23 and O25. -/

namespace Sys2Proof.Machine

/-- Candidates that are skipped or mismatch do not matter. -/
theorem firstFrame_append_of_passed {overlong : Bool} {s : Bits} {a c : Nat} {rest : List Nat} :
    ∀ {before : List Nat}, (∀ o ∈ before, tryCandidate overlong s a c o = .ok none) →
      firstFrame overlong s a c (before ++ rest) = firstFrame overlong s a c rest
  | [], _ => rfl
  | o :: before, h => by
    obtain ⟨ho, hbefore⟩ := List.forall_mem_cons.mp h
    rw [List.cons_append, firstFrame, ho]
    exact firstFrame_append_of_passed hbefore

theorem firstFrame_of_passed {overlong : Bool} {s : Bits} {a c : Nat} {offs : List Nat}
    (h : ∀ o ∈ offs, tryCandidate overlong s a c o = .ok none) :
    firstFrame overlong s a c offs = .error .noValidFrame := by
  simpa [firstFrame] using firstFrame_append_of_passed (rest := []) h

/-- Either every candidate is passed over, or the first that is not decides with its frame or its status. -/
theorem firstFrame_cases (overlong : Bool) (s : Bits) (a c : Nat) : ∀ offs : List Nat,
    (∀ o ∈ offs, tryCandidate overlong s a c o = .ok none) ∨
    ∃ before off after, offs = before ++ off :: after ∧ (∀ o ∈ before, tryCandidate overlong s a c o = .ok none) ∧
      ((∃ f, tryCandidate overlong s a c off = .ok (some f) ∧ firstFrame overlong s a c offs = .ok f) ∨
        ∃ e, tryCandidate overlong s a c off = .error e ∧ firstFrame overlong s a c offs = .error e)
  | [] => .inl nofun
  | o :: offs => by
    match ho : tryCandidate overlong s a c o with
    | .error e => exact .inr ⟨[], o, offs, rfl, nofun, .inr ⟨e, ho, by rw [firstFrame, ho]⟩⟩
    | .ok (some f) => exact .inr ⟨[], o, offs, rfl, nofun, .inl ⟨f, ho, by rw [firstFrame, ho]⟩⟩
    | .ok none =>
      have hrest : firstFrame overlong s a c (o :: offs) = firstFrame overlong s a c offs := by rw [firstFrame, ho]
      rw [hrest]
      rcases firstFrame_cases overlong s a c offs with hall | ⟨before, off, after, rfl, hbefore, hend⟩
      · exact .inl (List.forall_mem_cons.mpr ⟨ho, hall⟩)
      · exact .inr ⟨o :: before, off, after, rfl, List.forall_mem_cons.mpr ⟨ho, hbefore⟩, hend⟩

end Sys2Proof.Machine

open Sys2Proof Sys2Proof.Machine

/-- Settles O23: the first candidate that is not passed over decides, and no candidate raises NoValidFrame itself. -/
theorem firstMatchWins : Obligations.FirstMatchWins := by
  intro s a c raw t
  refine ⟨fun f => ⟨fun h => ?split, ?first⟩, fun h => ?none_left, firstFrame_of_passed⟩
  case first =>
    rintro ⟨before, off, after, hsplit, hoff, hbefore⟩
    show firstFrame false s a c (candidates s raw t) = .ok f
    rw [hsplit, firstFrame_append_of_passed hbefore, firstFrame, hoff]
  case split =>
    rcases firstFrame_cases false s a c (candidates s raw t) with hall | ⟨before, off, after, hsplit, hbefore, hend⟩
    · cases (firstFrame_of_passed hall).symm.trans h
    · rcases hend with ⟨g, hoff, hg⟩ | ⟨e, _, he⟩
      · cases hg.symm.trans h
        exact ⟨before, off, after, hsplit, hoff, hbefore⟩
      · cases he.symm.trans h
  case none_left =>
    rcases firstFrame_cases false s a c (candidates s raw t) with hall | ⟨_, _, _, _, _, ⟨_, _, hg⟩ | ⟨_, hoff, he⟩⟩
    · exact hall
    · cases hg.symm.trans h
    · cases he.symm.trans h
      obtain ⟨_, _, _, hstatus⟩ := tryCandidate_eq_error_iff.mp hoff
      cases hstatus

/-- Settles O25: with such a C a candidate that passes the length checks is never passed over, and gives no frame. -/
theorem unsupportedLengthIsLazy : Obligations.UnsupportedLengthIsLazy := by
  intro s a c raw t h1 h2
  rcases firstFrame_cases false s a c (candidates s raw t) with hall | ⟨before, off, after, hsplit, _, hend⟩
  · rw [if_neg]
    · exact firstFrame_of_passed hall
    · rintro ⟨off, hoff, hfits⟩
      cases (hall off hoff).symm.trans (tryCandidate_eq_error_iff.mpr ⟨hfits, h1, h2, rfl⟩)
  · rcases hend with ⟨f, hoff, _⟩ | ⟨e, hoff, hdecode⟩
    · obtain ⟨_, hc, _⟩ := tryCandidate_some hoff
      exact absurd hc (not_or.mpr ⟨h1, h2⟩)
    · obtain ⟨hfits, _, _, rfl⟩ := tryCandidate_eq_error_iff.mp hoff
      rw [if_pos ⟨off, by simp [hsplit], hfits⟩]
      exact hdecode

end

section
/-! The commands ENCODE and DECODE on an operand that fits (R171, R172, R176); O19, O20 and O27. -/

namespace Sys2Proof.Machine

theorem present_self {s : State} {d : Operand} (h : s.env.operand = d) : s.present d = s := by
  subst h; rfl

theorem exec_encode {s : State} {w : BitVec 2} {a : BitVec 4} {noack : Bool} {pid8 len8 : BitVec 8}
    {addr payload crcb : List Byte} (hd : s.env.operand = .strings addr payload crcb) (haddr : addr.length = a.toNat)
    (hpay : payload.length = len8.toNat) (hcrc : crcb.length = w.toNat) (ha : a ≠ 0) :
    exec (.encode w a noack pid8 len8) s =
      s.answer ((encodeFrame addr payload crcb pid8.toNat len8.toNat w.toNat noack).map .bits) := by
  show s.withStrings _ _ _ _ = _
  rw [State.withStrings, hd]
  dsimp only
  rw [if_pos ⟨haddr, hpay, hcrc⟩, if_neg ha]

theorem exec_decode {s : State} {w : BitVec 2} {a : BitVec 4} {raw : Bool} {tries : BitVec 8} {b : Bits}
    (hd : s.env.operand = .bits b) (ha : a ≠ 0) :
    exec (.decode w a raw tries) s =
      s.answer ((decodeFrame b a.toNat w.toNat raw tries.toNat).map .frame) :=
  (withBits_of_bits hd _).trans (if_neg ha)

/-! ### The checks of Encode, in their order (R172) -/

section
variable {addr payload crcb : List Byte} {pid8 len8 w : Nat} {noack : Bool}

theorem encodeFrame_of_overlong (hlen : 32 < len8) :
    encodeFrame addr payload crcb pid8 len8 w noack = .error .invalidPayload := if_pos hlen

theorem encodeFrame_of_pid (hlen : len8 ≤ 32) (hpid : 3 < pid8) :
    encodeFrame addr payload crcb pid8 len8 w noack = .error .invalidPacketId := by
  rw [encodeFrame, params_maxPayload, if_neg (Nat.not_lt.mpr hlen), if_pos hpid]

theorem encodeFrame_of_crcLength (hlen : len8 ≤ 32) (hpid : pid8 ≤ 3) (hw : w ≠ 1 ∧ w ≠ 2) :
    encodeFrame addr payload crcb pid8 len8 w noack = .error .unsupportedCrcLength := by
  rw [encodeFrame, params_maxPayload, if_neg (Nat.not_lt.mpr hlen), if_neg (Nat.not_lt.mpr hpid), if_pos hw]

theorem encodeFrame_of_range (hlen : len8 ≤ 32) (hpid : pid8 ≤ 3) (hw : w = 1 ∨ w = 2) :
    encodeFrame addr payload crcb pid8 len8 w noack =
      .ok (headerBits addr payload len8 pid8 noack ++ bytesToBits crcb) := by
  rw [encodeFrame, params_maxPayload, if_neg (Nat.not_lt.mpr hlen), if_neg (Nat.not_lt.mpr hpid), if_neg (by omega)]

end

end Sys2Proof.Machine

open Sys2Proof Sys2Proof.Machine

/-- Settles O19: the operand is already the one presented. -/
theorem encodeAnswersFrameBits : Obligations.EncodeAnswersFrameBits := by
  intro s w a noack pid8 len8 addr payload crcb hd haddr hpay hcrc ha hlen hpid hw
  have h := issue_encode_of_range w a noack pid8 len8 addr payload crcb s hw ha haddr hpay hcrc hlen hpid
  rwa [issue, present_self hd] at h

/-- Settles O20: each check in its turn. -/
theorem encodeErrorOrder : Obligations.EncodeErrorOrder := by
  intro s w a noack pid8 len8 addr payload crcb hd haddr hpay hcrc ha
  rw [exec_encode hd haddr hpay hcrc ha]
  refine ⟨fun hlen => ?payload, fun hlen hpid => ?pid, fun hlen hpid hw => ?crc⟩
  case payload => rw [encodeFrame_of_overlong hlen]; rfl
  case pid => rw [encodeFrame_of_pid hlen hpid]; rfl
  case crc =>
    rw [encodeFrame_of_crcLength hlen hpid (by rcases hw with rfl | rfl <;> decide)]; rfl

/-- Settles O27: DECODE only passes Decode's outcome on. -/
theorem decodeAnswersFrame : Obligations.DecodeAnswersFrame := by
  intro s w a raw tries b hd ha
  rw [exec_decode hd ha]
  exact ⟨fun f h => by rw [h]; rfl, fun e h => by rw [h]; rfl⟩

end

section
/-! What ENCODE_AUTO answers, decoded after the preamble, as it is and with one bit flipped (R193 to R196); O29 and
O30. -/

namespace Sys2Proof.Machine

/-! ### The CRC field of an encoded frame -/

theorem crcOf_lt_two_pow {c v : Nat} {s : Bits} (h : crcOf c s = .ok v) : v < 2 ^ (8 * c) := by
  rcases crcOf_eq_ok_iff.mp h with ⟨rfl, rfl⟩ | ⟨rfl, rfl⟩ <;> exact BitVec.isLt _

theorem uint_bitsOf_crc {c v : Nat} {s : Bits} (h : crcOf c s = .ok v) : uint (bitsOf (8 * c) v) = v := by
  rw [uint_bitsOf, Nat.mod_eq_of_lt (crcOf_lt_two_pow h)]

theorem bytesToBits_beBytes {c : Nat} (hc : c = 1 ∨ c = 2) (v : Nat) :
    bytesToBits (beBytes c v) = bitsOf (8 * c) v := by
  rcases hc with rfl | rfl
  · exact bytesToBits_beBytes_one v
  · exact bytesToBits_beBytes_two v

/-- The checksum of either length changes with any one bit (R152). -/
theorem crcOf_flip_ne {c v : Nat} {s : Bits} {i : Nat} (hi : i < s.length) (h : crcOf c s = .ok v) :
    crcOf c (s.set i (!s[i])) ≠ .ok v := by
  obtain ⟨h8, h16⟩ := crcDetectsSingleBitChanges.2 s i hi
  intro hflip
  rcases crcOf_eq_ok_iff.mp h with ⟨rfl, hv⟩ | ⟨rfl, hv⟩
  · exact h8 (BitVec.eq_of_toNat_eq ((Except.ok.inj hflip).trans hv.symm))
  · exact h16 (BitVec.eq_of_toNat_eq ((Except.ok.inj hflip).trans hv.symm))

/-! ### ENCODE_AUTO with fields in range -/

theorem toNat_eq_one_or_two {w : BitVec 2} (hw : w = 1 ∨ w = 2) : w.toNat = 1 ∨ w.toNat = 2 :=
  hw.imp (congrArg BitVec.toNat) (congrArg BitVec.toNat)

theorem encodeAuto_of_range {w : BitVec 2} {a : BitVec 4} {pid8 : BitVec 8} {addr payload : List Byte} (noack : Bool)
    (s : State) (hw : w = 1 ∨ w = 2) (ha : a ≠ 0) (haddr : addr.length = a.toNat) (hpay : payload.length ≤ 32)
    (hpid : pid8.toNat ≤ 3) :
    ∃ t v, crcOf w.toNat (headerBits addr payload payload.length pid8.toNat noack) = .ok v ∧
      encodeAuto w a pid8 noack addr payload s = .next t ∧
      t.env.response = some ⟨.ok, .bits
        (headerBits addr payload payload.length pid8.toNat noack ++ bitsOf (8 * w.toNat) v)⟩ := by
  obtain ⟨v, u, hv, hauto⟩ := encodeAuto_eq_issue_encode w a pid8 noack addr payload s hw
  have hlen : (BitVec.ofNat 8 payload.length).toNat = payload.length := by
    rw [BitVec.toNat_ofNat, Nat.mod_eq_of_lt (by omega)]
  have hc := toNat_eq_one_or_two hw
  rw [issue_encode_of_range w a noack pid8 _ addr payload _ u hw ha haddr hlen.symm (beBytes_length _ _)
    (by rwa [hlen]) hpid, hlen, bytesToBits_beBytes hc] at hauto
  exact ⟨_, v, hv, hauto, rfl⟩

/-! ### Decoding behind the preamble -/

/-- Behind the preamble, one try finds the candidate at 0 in both modes (R177 to R179). -/
theorem candidates_prependPreamble (x : Bits) (raw : Bool) : candidates (prependPreamble x) raw 1 = [0] := by
  cases raw with
  | false => rfl
  | true =>
    have hlen : (prependPreamble x).length + 1 - Config.params.preamble.length = x.length + 1 := by
      rw [prependPreamble, List.length_append]; omega
    have hfirst : slice (prependPreamble x) 0 Config.params.preamble.length = Config.params.preamble := rfl
    rw [candidates, if_pos rfl, preambleOffsets, hlen, List.range_succ_eq_map,
      List.filter_cons_of_pos (by exact beq_iff_eq.mpr hfirst)]
    rfl

theorem decodeFrame_prependPreamble_of_not_accepts {x : Bits} {a c : Nat} (raw : Bool) (hc : c = 1 ∨ c = 2)
    (h : ∀ f, ¬ Accepts x a c 0 f) : decodeFrame (prependPreamble x) a c raw 1 = .error .noValidFrame := by
  refine (firstMatchWins _ _ _ _ _).2.mpr ?_
  rw [candidates_prependPreamble, List.forall_mem_singleton]
  exact tryCandidate_eq_none hc fun f hf => h f (accepts_append_right_iff.mp hf)

/-! ### The encoded frame is accepted -/

/-- The fields Encode places are the fields a candidate at its first bit reads (R195). -/
theorem accepts_encoded {addr payload : List Byte} {pid c v : Nat} {noack : Bool} (hc : c = 1 ∨ c = 2)
    (hpay : payload.length ≤ 32) (hpid : pid ≤ 3)
    (hv : crcOf c (headerBits addr payload payload.length pid noack) = .ok v) :
    Accepts (headerBits addr payload payload.length pid noack ++ bitsOf (8 * c) v) addr.length c 0
      ⟨addr, payload.length, payload, BitVec.ofNat 2 pid, noack, beBytes c v⟩ := by
  have hencode := encodeFrame_of_range (addr := addr) (payload := payload) (crcb := beBytes c v) (noack := noack)
    hpay hpid hc
  obtain ⟨hout, haddr, hlen, hpid2, hnoack, hpayload, hcrc⟩ :=
    frameLayout _ _ _ _ _ _ _ _ rfl (beBytes_length _ _) hencode
  rw [bytesToBits_beBytes hc] at hout haddr hlen hpid2 hnoack hpayload hcrc
  have hcov := slice_middle [] (headerBits addr payload payload.length pid noack) (bitsOf (8 * c) v) 0 _ rfl
    (headerBits_length _ _ _ _ _)
  rw [List.nil_append] at hcov
  generalize headerBits addr payload payload.length pid noack ++ bitsOf (8 * c) v = out at *
  have hfield : lengthField out addr.length 0 = payload.length := by
    rw [lengthField, Nat.zero_add, hlen, uint_bitsOf, Nat.mod_eq_of_lt (by omega)]
  have hnumber : uint (crcField out addr.length c 0) = v := by
    rw [crcField, hfield, Nat.zero_add, hcrc, uint_bitsOf_crc hv]
  refine ⟨?_, ?_, ?_, ?_⟩
  · rwa [hfield]
  · rw [hfield]; omega
  · rw [coveredBits, hfield, hcov, hv, hnumber]
  · rw [hfield, hnumber]
    simp only [frameAt, Nat.zero_add, haddr, hpayload, hpid2, hnoack, uint_bitsOf, bitsToBytes_bytesToBits,
      Frame.mk.injEq, true_and, and_true]
    exact BitVec.eq_of_toNat_eq (by simp)

/-! ### One flipped bit -/

/-- A slice that ends at or before the changed bit does not see it. -/
theorem slice_set_of_le {s : Bits} {i n j : Nat} (b : Bool) (h : i + n ≤ j) : slice (s.set j b) i n = slice s i n := by
  rw [slice, List.drop_set, if_neg (by omega), List.take_set,
    List.set_eq_of_length_le (by rw [List.length_take]; omega), slice]

theorem set_not_ne {s : Bits} {i : Nat} (hi : i < s.length) : s.set i (!s[i]) ≠ s := by
  intro h
  have hbit := List.getElem_set_self (l := s) (i := i) (a := !s[i]) (by simpa using hi)
  simp [h] at hbit

/-- Bits that split into a covered part and a CRC field by their own length field are accepted only where the second is
the CRC of the first (R187). -/
theorem Accepts.crcOf_eq {body field : Bits} {a c len : Nat} {f : Frame} (h : Accepts (body ++ field) a c 0 f)
    (hlen : lengthField (body ++ field) a 0 = len) (hbody : body.length = 8 * a + 9 + 8 * len)
    (hfield : field.length = 8 * c) : crcOf c body = .ok (uint field) := by
  have hcov : coveredBits (body ++ field) a 0 = body := by
    rw [coveredBits, hlen, ← hbody, slice_append_left _ _ _ _ (Nat.zero_add _).le]
    simp [slice]
  have hcrc : crcField (body ++ field) a c 0 = field := by
    rw [crcField, hlen, Nat.zero_add, ← hbody, ← Nat.add_zero body.length, slice_append_right, slice, ← hfield]
    simp
  have hmatch := h.crc_match
  rwa [hcov, hcrc] at hmatch

/-- A bit flipped behind the length field leaves the frame's parts where they are and breaks its CRC (R196). -/
theorem not_accepts_flip {body field : Bits} {a c len i : Nat} {f : Frame} (hmatch : crcOf c body = .ok (uint field))
    (hlen : lengthField (body ++ field) a 0 = len) (hbody : body.length = 8 * a + 9 + 8 * len)
    (hfield : field.length = 8 * c) (hi : i < (body ++ field).length) (hafter : 8 * a + 9 ≤ i) :
    ¬ Accepts ((body ++ field).set i (!(body ++ field)[i])) a c 0 f := by
  intro h
  have hlen' : lengthField ((body ++ field).set i (!(body ++ field)[i])) a 0 = len := by
    rw [lengthField, slice_set_of_le _ (by omega), ← lengthField, hlen]
  by_cases hin : i < body.length
  · rw [List.set_append_left _ _ hin, List.getElem_append_left hin] at h hlen'
    exact crcOf_flip_ne hin hmatch (h.crcOf_eq hlen' (by rw [List.length_set, hbody]) hfield)
  · have hk : i - body.length < field.length := by rw [List.length_append] at hi; omega
    rw [List.set_append_right _ _ (by omega), List.getElem_append_right (by omega)] at h hlen'
    have hflip := h.crcOf_eq hlen' hbody (by rw [List.length_set, hfield])
    exact set_not_ne hk (uint_inj _ _ (List.length_set ..) (Except.ok.inj (hflip.symm.trans hmatch)))

end Sys2Proof.Machine

open Sys2Proof Sys2Proof.Machine

/-- Settles O29: what ENCODE_AUTO answers is accepted at its first bit, and the preamble in front is not read. -/
theorem frameRoundTrip : Obligations.FrameRoundTrip := by
  intro s w a pid8 noack addr payload hw ha haddr hpay hpid
  obtain ⟨t, v, hv, hnext, hresp⟩ := encodeAuto_of_range noack s hw ha haddr hpay hpid
  refine ⟨t, v, hv, hnext, hresp, ?_⟩
  have hc := toNat_eq_one_or_two hw
  rw [← haddr]
  exact (decodeFrame_nonraw_eq_ok_iff rfl).mpr (accepts_encoded hc hpay hpid hv)

/-- Settles O30: the flipped bit is in the covered bits or in the CRC field, and either way the two no longer agree. -/
theorem corruptionIsDetected : Obligations.CorruptionIsDetected := by
  intro s t w a pid8 noack raw addr payload x i hi hw ha haddr hpay hpid hnext hresp hafter
  obtain ⟨t', v, hv, hnext', hresp'⟩ := encodeAuto_of_range noack s hw ha haddr hpay hpid
  cases hnext.symm.trans hnext'
  cases hresp.symm.trans hresp'
  have hc := toNat_eq_one_or_two hw
  rw [← haddr] at hafter ⊢
  refine decodeFrame_prependPreamble_of_not_accepts raw hc fun f => ?_
  have hlen := congrArg Frame.payloadLength (accepts_encoded hc hpay hpid hv).frame_eq
  exact not_accepts_flip (by rwa [uint_bitsOf_crc hv]) hlen.symm (headerBits_length _ _ _ _ _) (bitsOf_length _ _)
    hi hafter

end

section
/-! The pipeline worker's turn as one equation per case (R219 to R224), a run of idle ticks (R231), the order of frames
(R235) and the Faulted worker (R226); O41 to O48. -/

namespace Sys2Proof.Machine

/-! ### The turn, by the guards it passes -/

/-- A tick with no frame ends in the timeout test (R223, R224). -/
theorem pipeTurn_of_noFrame {s : State} (ht : s.Ticks) (hn : s.NoFrame) :
    s.pipeTurn = s.afterTick.timeoutEval s.clockSample := by
  obtain ⟨hp, hs⟩ := ht
  cases hq : s.inq with
  | nil => simp [State.pipeTurn, State.pipeTickIdle, State.afterTick, State.afterSample, hp, hs, hq]
  | cons b rest =>
    obtain ⟨e, he⟩ := hn b rest hq
    simp [State.pipeTurn, State.pipeTickRx, State.afterTick, hp, hs, hq, he]

/-- The guards of `PipeEffect` decide the turn: whatever effect they allow is the one it has. -/
theorem PipeEffect.pipeTurn_eq {s t : State} (h : PipeEffect s t) : s.pipeTurn = t := by
  cases h with
  | rests hp => exact if_neg hp
  | stops hp hs => cases hq : s.inq <;> simp [State.pipeTurn, State.pipeTickRx, State.pipeTickIdle, hp, hs, hq]
  | succeeds ht b rest f hq hf =>
    obtain ⟨hp, hs⟩ := ht
    have hnohop : (s.afterTick.decodeSuccess f s.clockSample).timeoutEval s.clockSample =
        s.afterTick.decodeSuccess f s.clockSample := by
      rw [State.timeoutEval, if_neg]
      simpa using not_expired_self (s.afterTick.decodeSuccess f s.clockSample).scan
    simpa [State.pipeTurn, State.pipeTickRx, State.afterTick, hp, hs, hq, hf] using hnohop
  | waits ht hn hx => exact (pipeTurn_of_noFrame ht hn).trans (if_neg (by simp [hx]))
  | hops ht hn hx => exact (pipeTurn_of_noFrame ht hn).trans (if_pos hx)

/-! ### The hop, field by field -/

@[simp] theorem hop_inq (s : State) (now : Timestamp) : (s.hop now).inq = s.inq := by
  rw [hop_frame]; rfl

@[simp] theorem hop_frameq (s : State) (now : Timestamp) : (s.hop now).frameq = s.frameq := by
  rw [hop_frame]; rfl

/-- A hop of a Running pipeline with no fault: it stays so where the tuner answers ok, and is Faulted with cause 5 where
it fails (R224, R226). -/
theorem hop_of_running {s : State} {f sweep : Word} (now : Timestamp) (hp : s.pipeState = .running)
    (hc : s.faultCause = .ok) (hf : s.regs.freqValue s.hopChannel.toNat = f) (hw : s.regs.sweepValue = sweep) :
    s.hop now = { s with
      scan := ⟨s.hopChannel, .sweeping, now, sweep⟩
      pipeState := if s.tunerReturnsOk f then .running else .faulted
      faultCause := if s.tunerReturnsOk f then .ok else .setFrequencyFailed
      env := (s.afterCall f).env } := by
  have hok : (s.hopScan now).tunerReturnsOk f = s.tunerReturnsOk f := rfl
  rw [hop_eq, hf]
  rcases setFrequency_cases (s.hopScan now) f with ⟨h, he⟩ | ⟨h, he⟩ <;> rw [he, ← hok, h, ← hw]
  · rw [if_pos rfl, if_pos rfl, ← hp, ← hc]; rfl
  · rfl

/-! ### Registers a worker reads, where they are written -/

theorem lockedValue_of_written {c : Regs} {v : Word} (h : c.lockedTimeout = some v) : c.lockedValue = v := by
  rw [Regs.lockedValue, h]; rfl

theorem sweepValue_of_written {c : Regs} {v : Word} (h : c.sweepTimeout = some v) : c.sweepValue = v := by
  rw [Regs.sweepValue, h]; rfl

theorem freqValue_of_written {c : Regs} {i : Nat} {v : Word} (h : c.freq i = some v) : c.freqValue i = v := by
  rw [Regs.freqValue, h]; rfl

/-! ### `mode` -/

/-- The state with its scan mode replaced. -/
def State.setMode (s : State) (m : Mode) : State := { s with scan := { s.scan with mode := m } }

/-- Every guard and every effect of a turn reads the same in whichever mode (R230). -/
theorem PipeEffect.setMode {s t : State} (h : PipeEffect s t) (m n : Mode) :
    ∃ u, PipeEffect (s.setMode m) u ∧ u.setMode n = t.setMode n := by
  cases h with
  | rests hp => exact ⟨_, .rests hp, rfl⟩
  | stops hp hs => exact ⟨_, .stops hp hs, rfl⟩
  | succeeds ht b rest f hq hf => exact ⟨_, .succeeds (s := s.setMode m) ht b rest f hq hf, rfl⟩
  | waits ht hn hx => exact ⟨_, .waits ht hn hx, rfl⟩
  | hops ht hn hx => exact ⟨_, .hops ht hn hx, rfl⟩

/-! ### A run of idle ticks -/

/-- The sample is the draw, or the last sample where that is later (R30). -/
theorem clockSample_toNat {s : State} {d : Timestamp} {ds : List Timestamp} (h : s.env.clockIn = d :: ds) :
    s.clockSample.toNat = max d.toNat s.lastNow.toNat := by
  simp only [State.clockSample, h, List.head?_cons, Option.getD_some, BitVec.lt_def]
  split <;> omega

/-- The end of the dwell on the channel: a sample strictly later hops (R231). -/
def ScanState.dwellEnd (c : ScanState) : Nat := c.lastSuccess.toNat + c.activeTimeout.toNat

/-- At a time not before the last success the hop test does not wrap (R13, R224). -/
theorem expired_iff_dwellEnd_lt {c : ScanState} {now : Timestamp} (h : c.lastSuccess ≤ now) :
    c.expired now = true ↔ c.dwellEnd < now.toNat := by
  have hle : c.lastSuccess.toNat ≤ now.toNat := h
  rw [expired_iff, BitVec.toNat_sub_of_le h, ScanState.dwellEnd]
  omega

/-- A ticking pipeline with no candidate, its last sample within the dwell, and the clock's coming draws. -/
structure State.Dwelling (s : State) (draws : List Timestamp) : Prop where
  ticks : s.Ticks
  idle : s.inq = []
  timeOk : s.TimeOk
  early : s.lastNow.toNat ≤ s.scan.dwellEnd
  clock : s.env.clockIn = draws

namespace State.Dwelling

variable {s : State} {d : Timestamp} {ds rest : List Timestamp}

theorem noFrame (h : s.Dwelling ds) : s.NoFrame := fun b r hq => by cases h.idle.symm.trans hq

theorem lastSuccess_le_clockSample (h : s.Dwelling ds) : s.scan.lastSuccess ≤ s.clockSample :=
  BitVec.le_trans h.timeOk (lastNow_le_clockSample s)

/-- A draw within the dwell takes the sample and leaves the rest of the block alone (R221). -/
theorem pipeTurn_eq_afterTick (h : s.Dwelling (d :: ds)) (hd : d.toNat ≤ s.scan.dwellEnd) :
    s.pipeTurn = s.afterTick := by
  refine (PipeEffect.waits h.ticks h.noFrame (Bool.eq_false_iff.mpr fun hx => ?_)).pipeTurn_eq
  have hlt := (expired_iff_dwellEnd_lt h.lastSuccess_le_clockSample).mp hx
  have hearly := h.early
  rw [clockSample_toNat h.clock] at hlt
  omega

theorem afterTick (h : s.Dwelling (d :: ds)) (hd : d.toNat ≤ s.scan.dwellEnd) : s.afterTick.Dwelling ds where
  ticks := h.ticks
  idle := congrArg List.tail h.idle
  timeOk := h.lastSuccess_le_clockSample
  early := (clockSample_toNat h.clock).trans_le (Nat.max_le.mpr ⟨hd, h.early⟩)
  clock := congrArg List.tail h.clock

/-- Through any number of draws within the dwell the channel is kept and the tuner is not called (R231). -/
theorem iterate : ∀ {ds : List Timestamp} {s : State}, s.Dwelling (ds ++ rest) →
    (∀ x ∈ ds, x.toNat ≤ s.scan.dwellEnd) →
    (State.pipeTurn^[ds.length] s).Dwelling rest ∧ (State.pipeTurn^[ds.length] s).scan = s.scan ∧
      (State.pipeTurn^[ds.length] s).env.tunerLog = s.env.tunerLog ∧ (State.pipeTurn^[ds.length] s).regs = s.regs
  | [], _, h, _ => ⟨h, rfl, rfl, rfl⟩
  | d :: ds, s, h, hds => by
    have hd : d.toNat ≤ s.scan.dwellEnd := hds d List.mem_cons_self
    rw [List.length_cons, Function.iterate_succ_apply, h.pipeTurn_eq_afterTick hd]
    exact iterate (h.afterTick hd) fun x hx => hds x (List.mem_cons_of_mem _ hx)

/-- The first draw beyond the dwell is the sample, and hops (R231). -/
theorem pipeTurn_eq_hop (h : s.Dwelling (d :: ds)) (hd : s.scan.dwellEnd < d.toNat) :
    s.pipeTurn = s.afterTick.hop d := by
  have hearly := h.early
  have hsample : s.clockSample = d := BitVec.eq_of_toNat_eq (by rw [clockSample_toNat h.clock]; omega)
  have hx : s.scan.expired s.clockSample = true :=
    (expired_iff_dwellEnd_lt h.lastSuccess_le_clockSample).mpr (hsample ▸ hd)
  exact hsample ▸ (PipeEffect.hops h.ticks h.noFrame hx).pipeTurn_eq

end State.Dwelling

/-! ### The order of frames -/

/-- The frames of the candidates that decode, in their order. -/
def Regs.framesOf (c : Regs) (cands : List Bits) : List Frame := cands.filterMap fun b => (c.decodeCand b).toOption

theorem framesOf_cons (c : Regs) (b : Bits) (cands : List Bits) :
    c.framesOf (b :: cands) = c.framesOf [b] ++ c.framesOf cands := List.filterMap_append (l := [b])

theorem framesOf_singleton_of_ok {c : Regs} {b : Bits} {f : Frame} (h : c.decodeCand b = .ok f) :
    c.framesOf [b] = [f] := by
  simp [Regs.framesOf, h, Except.toOption]

theorem framesOf_singleton_of_error {c : Regs} {b : Bits} {e : Status} (h : c.decodeCand b = .error e) :
    c.framesOf [b] = [] := by
  simp [Regs.framesOf, h, Except.toOption]

/-- A tick with no frame takes the head of `inq` and pushes nothing, whether it hops or not. -/
theorem pipeTurn_queues_of_noFrame {s : State} (ht : s.Ticks) (hn : s.NoFrame) :
    s.pipeTurn.inq = s.inq.tail ∧ s.pipeTurn.frameq = s.frameq := by
  rw [pipeTurn_of_noFrame ht hn]
  rcases timeoutEval_cases s.afterTick s.clockSample with ⟨_, he⟩ | ⟨_, he⟩ <;> rw [he]
  · exact ⟨hop_inq _ _, hop_frameq _ _⟩
  · exact ⟨rfl, rfl⟩

/-- A tick moves one candidate out of `inq`, and its frame, where it decodes, to the tail of `frameq` (R235). -/
theorem pipeTurn_queues {s : State} {b : Bits} {cands : List Bits} (ht : s.Ticks) (hq : s.inq = b :: cands) :
    s.pipeTurn.inq = cands ∧ s.pipeTurn.frameq = s.frameq ++ s.regs.framesOf [b] := by
  cases hd : s.regs.decodeCand b with
  | ok f =>
    rw [(PipeEffect.succeeds ht b cands f hq hd).pipeTurn_eq, framesOf_singleton_of_ok hd]
    exact ⟨congrArg List.tail hq, rfl⟩
  | error e =>
    obtain ⟨hinq, hframeq⟩ := pipeTurn_queues_of_noFrame ht fun b' rest hq' => by
      cases hq.symm.trans hq'
      exact ⟨e, hd⟩
    rw [hinq, hframeq, framesOf_singleton_of_error hd, List.append_nil, hq]
    exact ⟨rfl, rfl⟩

/-! ### Faulted -/

/-- No command touches a Faulted pipeline: START, the one that could, is refused (R214, R293). -/
theorem CommandEffect.keeps_fault {s t : State} {i : Instr} (h : CommandEffect s i t) (hp : s.pipeState = .faulted) :
    t.pipeState = .faulted ∧ t.faultCause = s.faultCause ∧ t.scan = s.scan ∧ t.env.tunerLog = s.env.tunerLog := by
  cases h with
  | starts hs | startFaults hs =>
    obtain ⟨_, _, hnf, _⟩ := hs
    exact absurd hp hnf
  | _ => exact ⟨hp, rfl, rfl, rfl⟩

end Sys2Proof.Machine

open Sys2Proof Sys2Proof.Machine

/-- Settles O41: the stop check comes before the queue is looked at. -/
theorem pipelineStopCheck : Obligations.PipelineStopCheck := fun _ hp hs => (PipeEffect.stops hp hs).pipeTurn_eq

/-- Settles O42: after a success at the sample the timeout test at the same sample never holds. -/
theorem successTickLocksAndNeverHops : Obligations.SuccessTickLocksAndNeverHops := by
  intro s b rest f lt ht hq hf hlt
  refine ⟨_, (PipeEffect.succeeds ht b rest f hq hf).pipeTurn_eq, ?_, rfl, rfl⟩
  rw [← lockedValue_of_written hlt, show rest = s.inq.tail by rw [hq]; rfl]
  rfl

/-- Settles O43: the timeout test fails, so only the tick's first effects are left. -/
theorem quietTickChangesNoScanState : Obligations.QuietTickChangesNoScanState := by
  intro s ht hn hle
  have hx : s.scan.expired s.clockSample = false :=
    Bool.eq_false_iff.mpr fun hx => absurd ((expired_iff _ _).mp hx) (Nat.not_lt.mpr hle)
  exact ⟨_, (PipeEffect.waits ht hn hx).pipeTurn_eq, rfl, rfl, rfl⟩

/-- Settles O44: the timeout test holds, and the hop's tuner call decides between Running and Faulted. -/
theorem expiredTickHops : Obligations.ExpiredTickHops := by
  intro s i f sweep ht hc hn hlt hcount hi hf hsweep
  have hturn := (PipeEffect.hops ht hn ((expired_iff _ _).mpr hlt)).pipeTurn_eq
  have hchan : s.afterTick.hopChannel = i :=
    BitVec.eq_of_toNat_eq ((nextChannel_toNat _ _ hcount).trans hi.symm)
  have hfreq : s.afterTick.regs.freqValue s.afterTick.hopChannel.toNat = f := by
    rw [hchan]
    exact freqValue_of_written hf
  rw [hop_of_running s.clockSample (s := s.afterTick) ht.1 hc hfreq (sweepValue_of_written hsweep), hchan] at hturn
  exact ⟨_, _, hturn, rfl, rfl, rfl, rfl⟩

/-- Settles O45: with the mode replaced the turn has the same effect. -/
theorem modeNeverDecides : Obligations.ModeNeverDecides := by
  intro s m n
  obtain ⟨u, hu, he⟩ := (pipeTurn_effect s).setMode m n
  have hturn : (s.setMode m).pipeTurn.setMode n = s.pipeTurn.setMode n := by rw [hu.pipeTurn_eq, he]
  exact hturn

/-- Settles O46: any first part of `ds` keeps the dwell, and all of it leaves the late draw at the clock. -/
theorem dwellThenHop : Obligations.DwellThenHop := by
  intro s ds rest d ht hq htime hclock hcount hearly hds hd
  have dwells : ∀ {early late}, s.env.clockIn = early ++ late → s.Dwelling (early ++ late) :=
    fun h => ⟨ht, hq, htime, hearly, h⟩
  refine ⟨fun n hn => ?dwell, ?hop⟩
  case dwell =>
    have hsplit : s.env.clockIn = ds.take n ++ (ds.drop n ++ d :: rest) := by
      rw [hclock, ← List.append_assoc, List.take_append_drop]
    obtain ⟨_, hscan, hlog, _⟩ := (dwells hsplit).iterate fun x hx => hds x (List.mem_of_mem_take hx)
    rw [List.length_take_of_le hn] at hscan hlog
    exact ⟨hscan, hlog⟩
  case hop =>
    obtain ⟨hdwell, hscan, _, hregs⟩ := (dwells hclock).iterate hds
    rw [Function.iterate_succ_apply', hdwell.pipeTurn_eq_hop (hscan ▸ hd), hop_scan, State.hopChannel,
      State.afterTick_scan, State.afterTick_regs, hscan, hregs]
    exact ⟨nextChannel_toNat _ _ hcount, rfl, rfl⟩

/-- Settles O47, by induction on the number of ticks, from the first one on. -/
theorem pipelinePreservesOrder : Obligations.PipelinePreservesOrder := by
  intro s n
  induction n generalizing s with
  | zero => exact fun _ _ => ⟨rfl, (List.append_nil _).symm⟩
  | succ n ih =>
    intro hn hticks
    obtain ⟨b, cands, hq⟩ := List.exists_cons_of_length_pos (Nat.zero_lt_of_lt hn)
    obtain ⟨hinq, hframeq⟩ := pipeTurn_queues (s := s) (hticks 0 n.succ_pos) hq
    have hlen : n ≤ s.pipeTurn.inq.length := by
      rw [hinq]
      rwa [hq, List.length_cons, Nat.succ_le_succ_iff] at hn
    obtain ⟨hdrop, hframes⟩ := ih s.pipeTurn hlen fun m hm => hticks (m + 1) (Nat.succ_lt_succ hm)
    rw [Function.iterate_succ_apply, hq, hdrop, hframes, hinq, hframeq, (pipeTurn_effect s).regs_eq,
      List.append_assoc]
    exact ⟨rfl, congrArg (s.frameq ++ ·) (framesOf_cons s.regs b (cands.take n)).symm⟩

/-- Settles O48, by the step's event: a Faulted pipeline takes no turn, and the fan-out has no part in it. -/
theorem faultedUntilReset : Obligations.FaultedUntilReset := by
  intro s t hp hreset hstep
  rcases step_cases s t hstep with ⟨w, d, _, ⟨i, _, hexec⟩ | ⟨x, _, rfl⟩⟩ | ⟨_, rfl⟩ | ⟨_, rfl⟩ | ⟨he, _⟩
  · exact (exec_effect hexec).keeps_fault hp
  · exact ⟨hp, rfl, rfl, rfl⟩
  · rw [(PipeEffect.rests (s := s.afterEvent) (by simp [hp])).pipeTurn_eq]
    exact ⟨hp, rfl, rfl, rfl⟩
  · rw [fanTurn_frame]
    exact ⟨hp, rfl, rfl, rfl⟩
  · exact absurd he hreset

end

section
/-! CFG_WRITE by its access and value checks, and CFG_READ after it (R211 to R213); O33 to O35. -/

namespace Sys2Proof.Machine

/-! ### Register numbers -/

/-- The number of a register (R41). -/
def Reg.number : Reg → Nat
  | .status => 0x00
  | .addrLen => 0x01
  | .crcLen => 0x02
  | .maxTries => 0x03
  | .rawMode => 0x04
  | .lockedTimeout => 0x05
  | .sweepTimeout => 0x06
  | .pollInterval => 0x07
  | .chanCount => 0x08
  | .activeTimeout => 0x09
  | .lastSuccessLo => 0x0A
  | .lastSuccessHi => 0x0B
  | .subsMask => 0x0C
  | .faultCause => 0x0D
  | .crcState => 0x0E
  | .reserved => 0x0F
  | .chanFreq i => 0x10 + i

theorem number_ofNumber : ∀ r : BitVec 8, (Reg.ofNumber r).number = r.toNat := by decide +kernel

/-- Two numbers never name one register. -/
theorem ofNumber_injective : Function.Injective Reg.ofNumber := fun r q h =>
  BitVec.eq_of_toNat_eq (by rw [← number_ofNumber, h, number_ofNumber])

/-- A number names an entry of the table only inside it (R56). -/
theorem chanFreq_lt_of_ofNumber {r : BitVec 8} {i : Nat} (h : Reg.ofNumber r = .chanFreq i) : i < 240 := by
  have hn : 0x10 + i = r.toNat := by rw [← number_ofNumber, h]; rfl
  have := r.isLt
  omega

/-- The numbers that are read-only or reserved (R41, R57). -/
theorem not_writable_ofNumber_iff :
    ∀ r : BitVec 8, (Reg.ofNumber r).writable = false ↔ r = 0x00 ∨ (0x09 ≤ r.toNat ∧ r.toNat ≤ 0x0F) := by
  decide +kernel

/-! ### Values -/

/-- A register as wide as its value needs gives the value back. -/
theorem setWidth_setWidth_of_lt {v : Word} {n : Nat} (h : v.toNat < 2 ^ n) : (v.setWidth n).setWidth 32 = v := by
  apply BitVec.eq_of_toNat_eq
  rw [BitVec.toNat_setWidth, BitVec.toNat_setWidth, Nat.mod_eq_of_lt h, Nat.mod_eq_of_lt v.isLt]

theorem eq_zero_or_one_of_toNat_le {v : Word} (h : v.toNat ≤ 1) : v = 0 ∨ v = 1 := by
  rcases Nat.le_one_iff_eq_zero_or_eq_one.mp h with h | h
  · exact .inl (BitVec.eq_of_toNat_eq h)
  · exact .inr (BitVec.eq_of_toNat_eq h)

theorem extractLsb'_high_eq_zero_iff (v : Word) : v.extractLsb' 2 30 = 0 ↔ v.toNat < 4 := by
  rw [← BitVec.toNat_inj, BitVec.extractLsb'_toNat, Nat.shiftRight_eq_div_pow]
  have := v.isLt
  show v.toNat / 2 ^ 2 % 2 ^ 30 = 0 ↔ v.toNat < 4
  omega

/-- CRC_LEN takes 1 and 2, and tells other values of its two bits from values that do not fit them (R213). -/
theorem write_crcLen (c : Regs) (v : Word) :
    c.write .crcLen v =
      if v = 1 ∨ v = 2 then .ok { c with crcLen := v.setWidth 2 }
      else if v.toNat < 4 then .error .unsupportedCrcLength else .error .configError := by
  have hlegal : (v = 1 ∨ v = 2) ↔ (v.toNat = 1 ∨ v.toNat = 2) := by
    rw [← BitVec.toNat_inj, ← BitVec.toNat_inj]; rfl
  simp only [Regs.write, guardWrite, ne_eq, extractLsb'_high_eq_zero_iff, decide_eq_true_eq, hlegal]
  by_cases h4 : v.toNat < 4
  · simp [h4]
  · rw [if_pos h4, if_neg (by omega), if_neg h4]

theorem write_of_not_writable {r : Reg} (h : r.writable = false) (c : Regs) (v : Word) :
    c.write r v = .error .illegalCommand := by
  cases r <;> cases h <;> rfl

/-! ### CFG_WRITE of a word -/

theorem withWord_of_word {s : State} {v : Word} (h : s.env.operand = .word v) (k : Word → Result) :
    s.withWord k = k v := by
  rcases withWord_cases s k with ⟨w, hw, e⟩ | ⟨hne, _⟩
  · obtain rfl : v = w := Operand.word.inj (h.symm.trans hw)
    exact e
  · exact absurd h (hne v)

section
variable {s : State} {v : Word} {r : BitVec 8}

theorem exec_cfgWrite_of_not_writable (hv : s.env.operand = .word v) (hw : (Reg.ofNumber r).writable = false) :
    exec (.cfgWrite r) s = .next (s.respond .illegalCommand .nothing) :=
  (withWord_of_word hv _).trans (if_pos (by rw [hw]; rfl))

theorem exec_cfgWrite_of_running (hv : s.env.operand = .word v) (hw : (Reg.ofNumber r).writable = true)
    (hp : s.pipeState = .running) : exec (.cfgWrite r) s = .next (s.respond .invalidState .nothing) :=
  (withWord_of_word hv _).trans ((if_neg (by rw [hw]; decide)).trans (if_pos hp))

theorem exec_cfgWrite_of_write_ok {c : Regs} (hv : s.env.operand = .word v) (hp : s.pipeState ≠ .running)
    (hc : s.regs.write (Reg.ofNumber r) v = .ok c) :
    exec (.cfgWrite r) s = .next ({ s with regs := c }.respond .ok .nothing) := by
  cases hw : (Reg.ofNumber r).writable with
  | false => cases (write_of_not_writable hw s.regs v).symm.trans hc
  | true =>
    refine (withWord_of_word hv _).trans ((if_neg (by rw [hw]; decide)).trans ((if_neg hp).trans ?_))
    rw [hc]; rfl

theorem exec_cfgWrite_of_write_error {e : Status} (hv : s.env.operand = .word v) (hp : s.pipeState ≠ .running)
    (he : s.regs.write (Reg.ofNumber r) v = .error e) :
    exec (.cfgWrite r) s = .next (s.respond e .nothing) := by
  cases hw : (Reg.ofNumber r).writable with
  | false =>
    cases (write_of_not_writable hw s.regs v).symm.trans he
    exact exec_cfgWrite_of_not_writable hv hw
  | true =>
    refine (withWord_of_word hv _).trans ((if_neg (by rw [hw]; decide)).trans ((if_neg hp).trans ?_))
    rw [he]; rfl

/-- A register whose value is checked is stored or refused by the check alone. -/
theorem exec_cfgWrite_of_guard {p : Prop} [Decidable p] {e : Status} {c : Regs} (hv : s.env.operand = .word v)
    (hp : s.pipeState ≠ .running) (hw : s.regs.write (Reg.ofNumber r) v = guardWrite (decide p) e c) :
    exec (.cfgWrite r) s =
      .next (if p then { s with regs := c }.respond .ok .nothing else s.respond e .nothing) := by
  by_cases h : p
  · rw [if_pos h]
    exact exec_cfgWrite_of_write_ok hv hp (hw.trans (if_pos (decide_eq_true h)))
  · rw [if_neg h]
    exact exec_cfgWrite_of_write_error hv hp (hw.trans (if_neg (by simpa using h)))

end

/-! ### Reading after a write -/

/-- The written register reads as the value written (R211). -/
theorem readReg_write_self {s : State} {c : Regs} {r : Reg} {v : Word} (hr : ∀ i, r = .chanFreq i → i < 240)
    (h : s.regs.write r v = .ok c) : ({ s with regs := c } : State).readReg r = .ok v := by
  rcases write_ok_cases s.regs c r v h with ⟨rfl, _, hv, rfl⟩ | ⟨rfl, hv, rfl⟩ | ⟨rfl, hv, rfl⟩ | ⟨rfl, hv, rfl⟩ |
    ⟨rfl, rfl⟩ | ⟨rfl, rfl⟩ | ⟨rfl, rfl⟩ | ⟨rfl, hv, rfl⟩ | ⟨i, rfl, rfl⟩
  · exact congrArg Except.ok (setWidth_setWidth_of_lt (by omega))
  · exact congrArg Except.ok (setWidth_setWidth_of_lt (by omega))
  · exact congrArg Except.ok (setWidth_setWidth_of_lt (by omega))
  · rcases eq_zero_or_one_of_toNat_le hv with rfl | rfl <;> rfl
  · rfl
  · rfl
  · rfl
  · exact congrArg Except.ok (setWidth_setWidth_of_lt (by omega))
  · rw [State.readReg, freq_eq_getElem _ (hr i rfl), Vector.getElem_setIfInBounds_self]
    rfl

/-- The registers that are not RW hold no configuration (R41). -/
theorem readReg_of_not_writable {q : Reg} (hw : q.writable = false) (s : State) (c : Regs) :
    ({ s with regs := c } : State).readReg q = s.readReg q := by
  cases q <;> cases hw <;> rfl

/-- Every other register reads as before (R212). -/
theorem readReg_write_of_ne {s : State} {c : Regs} {r q : Reg} {v : Word} (h : s.regs.write r v = .ok c)
    (hq : q ≠ r) : ({ s with regs := c } : State).readReg q = s.readReg q := by
  cases hw : q.writable with
  | false => exact readReg_of_not_writable hw s c
  | true =>
    rcases write_ok_cases s.regs c r v h with ⟨rfl, _, _, rfl⟩ | ⟨rfl, _, rfl⟩ | ⟨rfl, _, rfl⟩ | ⟨rfl, _, rfl⟩ |
      ⟨rfl, rfl⟩ | ⟨rfl, rfl⟩ | ⟨rfl, rfl⟩ | ⟨rfl, _, rfl⟩ | ⟨i, rfl, rfl⟩
    on_goal 9 =>
      cases q with
      | chanFreq j =>
        have hij : i ≠ j := fun h => hq (by rw [h])
        rw [State.readReg, State.readReg, Regs.freq, Regs.freq, Vector.getElem?_setIfInBounds_ne hij]
      | _ => rfl
    all_goals cases q <;> simp_all [State.readReg, Reg.writable, Regs.freq]

/-- A read looks at the block alone. -/
theorem readReg_env (s : State) (e : Env) (q : Reg) : ({ s with env := e } : State).readReg q = s.readReg q := by
  cases q <;> rfl

/-- The response of a read that gives a value or fails (R118, R211). -/
def readResponse : Except Status Word → Response
  | .ok v => ⟨.ok, .word v⟩
  | .error e => ⟨e, .nothing⟩

theorem issue_cfgRead (s : State) (q : BitVec 8) :
    ∃ u, issue (.cfgRead q) .empty s = .next u ∧
      u.env.response = some (readResponse (s.readReg (Reg.ofNumber q))) := by
  have hread : (s.present .empty).readReg (Reg.ofNumber q) = s.readReg (Reg.ofNumber q) := readReg_env s _ _
  rw [← hread]
  cases h : (s.present .empty).readReg (Reg.ofNumber q) with
  | ok v => exact ⟨_, execCfgRead_of_ok rfl h, rfl⟩
  | error e => exact ⟨_, execCfgRead_of_error rfl h, rfl⟩

/-- A CFG_WRITE that answers OK leaves the written registers to read, beside a new response (R212). -/
theorem readReg_of_cfgWrite_ok {s t : State} {r : BitVec 8} {v : Word}
    (h : issue (.cfgWrite r) (.word v) s = .next t) (hresp : t.env.response = some ⟨.ok, .nothing⟩) :
    ∃ c, s.regs.write (Reg.ofNumber r) v = .ok c ∧ ∀ x, t.readReg x = ({ s with regs := c } : State).readReg x := by
  rcases execCfgWrite_cases r (s.present (.word v)) t h with ⟨w, c, hw, _, hc, rfl⟩ | ⟨e, he, rfl⟩
  · obtain rfl : v = w := Operand.word.inj hw
    exact ⟨c, hc, readReg_env { s with regs := c } _⟩
  · cases hresp
    exact absurd rfl he

end Sys2Proof.Machine

open Sys2Proof Sys2Proof.Machine

/-- Settles O33: each number names its register, whose check and store are the table's. -/
theorem cfgWriteStoresLegalValue : Obligations.CfgWriteStoresLegalValue := by
  intro s v hv hp
  refine ⟨exec_cfgWrite_of_guard hv hp rfl, ?crcLen, exec_cfgWrite_of_guard hv hp rfl, ?rawMode,
    exec_cfgWrite_of_write_ok hv hp rfl, exec_cfgWrite_of_write_ok hv hp rfl, exec_cfgWrite_of_write_ok hv hp rfl,
    exec_cfgWrite_of_guard hv hp rfl, fun i hi => ?chanFreq⟩
  case crcLen =>
    have hwrite := write_crcLen s.regs v
    split at hwrite
    next h => rw [if_pos h]; exact exec_cfgWrite_of_write_ok hv hp hwrite
    next h =>
      rw [if_neg h]
      split at hwrite
      next h4 => rw [if_pos h4]; exact exec_cfgWrite_of_write_error hv hp hwrite
      next h4 => rw [if_neg h4]; exact exec_cfgWrite_of_write_error hv hp hwrite
  case rawMode =>
    rw [exec_cfgWrite_of_guard (p := v.toNat ≤ 1) hv hp rfl]
    split
    next h => rcases eq_zero_or_one_of_toNat_le h with rfl | rfl <;> rfl
    next => rfl
  case chanFreq =>
    have hset : s.regs.chanFreq.setIfInBounds i (some v) = s.regs.chanFreq.set i (some v) :=
      Vector.ext fun j hj => by rw [Vector.getElem_setIfInBounds, Vector.getElem_set]
    rw [← hset]
    exact exec_cfgWrite_of_write_ok hv hp (by rw [ofNumber_chanFreq hi]; rfl)

/-- Settles O34: the access check comes before the worker's state. -/
theorem cfgWriteAccess : Obligations.CfgWriteAccess := by
  intro s v r hv
  rw [← not_writable_ofNumber_iff]
  exact ⟨exec_cfgWrite_of_not_writable hv, fun hw => exec_cfgWrite_of_running hv (by simpa using hw)⟩

/-- Settles O35: a CFG_WRITE that answers OK is a store, and no two numbers name one register. -/
theorem cfgReadAfterWrite : Obligations.CfgReadAfterWrite := by
  intro s t r q v hwrite hresp
  obtain ⟨c, hc, hread⟩ := readReg_of_cfgWrite_ok hwrite hresp
  obtain ⟨u, hu, hur⟩ := issue_cfgRead t q
  obtain ⟨u', hu', hur'⟩ := issue_cfgRead s q
  refine ⟨u, u', hu, hu', fun hq => ?same, fun hq => ?other⟩
  case same =>
    rw [hur, hread, hq, readReg_write_self (fun _ => chanFreq_lt_of_ofNumber) hc]
    rfl
  case other => rw [hur, hur', hread, readReg_write_of_ne hc fun h => hq (ofNumber_injective h)]

end

section
/-! START by its checks, STOP and PUSH_CAND (R214 to R218); O37 to O40. -/

namespace Sys2Proof.Machine

/-! ### START -/

/-- The configuration START needs, entry by entry (R215). -/
theorem complete_iff (c : Regs) :
    c.complete = true ↔ 1 ≤ c.chanCount.toNat ∧ (∀ i, i < c.chanCount.toNat → ∃ g, c.freq i = some g) ∧
      (∃ l, c.lockedTimeout = some l) ∧ ∃ w, c.sweepTimeout = some w := by
  simp [Regs.complete, Option.isSome_iff_exists, and_assoc]

theorem startChecks_of_complete {s : State} (hd : s.env.operand = .empty)
    (hp : s.pipeState = .idle ∨ s.pipeState = .stopped) (hf : s.fanState ≠ .running) (hc : s.regs.complete = true) :
    s.StartChecks :=
  ⟨hd, by rcases hp with h | h <;> simp [h], by rcases hp with h | h <;> simp [h], hf, hc⟩

/-- START's writes with the configuration's values in them (R216). -/
theorem startScan_of_written {s : State} {sweep : Word} (h : s.regs.sweepTimeout = some sweep) :
    s.startScan =
      { s.afterSample with scan := ⟨0, .sweeping, s.clockSample, sweep⟩, stopReq := false } := by
  rw [State.startScan, sweepValue_of_written h]

theorem exec_start_of_ok {s : State} {f : Word} (hs : s.StartChecks) (hf : s.regs.freq 0 = some f)
    (ht : s.startScan.tunerReturnsOk f = true) :
    exec .start s = .next ({ s.startScan.afterCall f with
      pipeState := .running, fanState := .running }.respond .ok .nothing) := by
  have h := execStart_of_checks s hs
  rwa [freqValue_of_written hf, if_pos ht] at h

theorem exec_start_of_fail {s : State} {f : Word} (hs : s.StartChecks) (hf : s.regs.freq 0 = some f)
    (ht : s.startScan.tunerReturnsOk f = false) :
    exec .start s = .next ((s.startScan.afterCall f).enterFaulted.respond .setFrequencyFailed .nothing) := by
  have h := execStart_of_checks s hs
  rwa [freqValue_of_written hf, if_neg (by simp [ht])] at h

theorem exec_start_of_busy {s : State} (hd : s.env.operand = .empty)
    (hw : s.pipeState = .running ∨ s.pipeState = .faulted ∨ s.fanState = .running) :
    exec .start s = .next (s.respond .invalidState .nothing) :=
  (withEmpty_of_empty hd _).trans (if_pos hw)

theorem exec_start_of_incomplete {s : State} (hd : s.env.operand = .empty)
    (hw : ¬(s.pipeState = .running ∨ s.pipeState = .faulted ∨ s.fanState = .running))
    (hc : s.regs.complete = false) : exec .start s = .next (s.respond .configError .nothing) :=
  (withEmpty_of_empty hd _).trans ((if_neg hw).trans (if_pos (by rw [hc]; rfl)))

/-! ### STOP and PUSH_CAND -/

theorem exec_stop {s : State} (hd : s.env.operand = .empty) :
    exec .stop s = .next ({ s with stopReq := true }.respond .ok .nothing) := withEmpty_of_empty hd _

theorem exec_pushCand {s : State} {b : Bits} (hd : s.env.operand = .bits b) :
    exec .pushCand s = .next ({ s with inq := s.inq ++ [b] }.respond .ok .nothing) := withBits_of_bits hd _

end Sys2Proof.Machine

open Sys2Proof Sys2Proof.Machine

/-- Settles O37: with every check passed the tuner's ok runs both workers. -/
theorem startRunsBothWorkers : Obligations.StartRunsBothWorkers := by
  intro s f sweep hd hp hfan hcount htable hlocked hsweep hf ht
  have hs := startChecks_of_complete hd hp hfan ((complete_iff _).mpr ⟨hcount, htable, hlocked, sweep, hsweep⟩)
  refine ⟨_, exec_start_of_ok hs hf ht, rfl, ?_, rfl, rfl⟩
  rw [startScan_of_written hsweep]
  rfl

/-- Settles O38: with every check passed the tuner's failure faults the pipeline after START's writes. -/
theorem startFaultsWhenTunerFails : Obligations.StartFaultsWhenTunerFails := by
  intro s f sweep hd hp hfan hcount htable hlocked hsweep hf ht
  have hs := startChecks_of_complete hd hp hfan ((complete_iff _).mpr ⟨hcount, htable, hlocked, sweep, hsweep⟩)
  refine ⟨_, exec_start_of_fail hs hf ht, rfl, ?_, rfl⟩
  rw [startScan_of_written hsweep]
  rfl

/-- Settles O39: the workers' states are checked before the configuration, which any missing part makes incomplete. -/
theorem startRefusals : Obligations.StartRefusals := by
  intro s hd
  refine ⟨exec_start_of_busy hd, fun hp hfan hmissing => exec_start_of_incomplete hd ?ready ?incomplete⟩
  case ready => rcases hp with h | h <;> simp [h, hfan]
  case incomplete =>
    rw [Bool.eq_false_iff, ne_eq, complete_iff]
    rintro ⟨hcount, htable, ⟨l, hl⟩, w, hw⟩
    rcases hmissing with h | ⟨i, hi, h⟩ | h | h
    · simp [h] at hcount
    · obtain ⟨g, hg⟩ := htable i hi
      cases h.symm.trans hg
    · cases h.symm.trans hl
    · cases h.symm.trans hw

/-- Settles O40: neither command looks at a worker's state, and STOP's flag is the same set twice. -/
theorem stopAndPushCommands : Obligations.StopAndPushCommands := by
  refine ⟨fun s hd => exec_stop hd, fun s t hd h => ?again, fun s b hd => exec_pushCand hd⟩
  case again =>
    cases (exec_stop hd).symm.trans h
    exact exec_stop (by exact hd)

end

section
/-! CONNECT, POP and the fan-out's deliveries, slot by slot (R261 to R266, R270); O50 to O53. -/

namespace Sys2Proof.Machine

/-! ### CONNECT -/

/-- Each 4-bit slot number is a slot, so CONNECT of the empty operand always connects (R261). -/
theorem exec_connect {s : State} {k : BitVec 4} (hd : s.env.operand = .empty) :
    exec (.connect k) s =
      .next ({ s with connected := withSlot s.connected k.toNat }.respond .ok .nothing) :=
  (withEmpty_of_empty hd _).trans (if_neg (not_maxSubs_le_slot k))

theorem isConnected_withSlot_eq (s : State) (k j : BitVec 4) :
    ({ s with connected := withSlot s.connected k.toNat } : State).isConnected j.toNat =
      (s.isConnected j.toNat || j == k) := by
  have hj : j.toNat < 16 := j.isLt
  rw [State.isConnected, withSlot_getLsbD, decide_eq_true hj, Bool.true_and, State.isConnected, beq_eq_decide]
  simp only [BitVec.toNat_inj]

/-- A slot already in the subscriber set adds nothing to it (R270). -/
theorem withSlot_of_connected {c : BitVec 16} {k : Nat} (h : c.getLsbD k = true) : withSlot c k = c := by
  refine BitVec.eq_of_getLsbD_eq fun j hj => ?_
  rw [withSlot_getLsbD]
  by_cases hjk : j = k
  · simp [hjk, h]
  · simp [hjk]

/-! ### POP -/

/-- POP leaves its slot the rest of the queue and the other slots theirs (R262). -/
theorem slotQueue_set (s : State) (k j : BitVec 4) (rest : List Frame) :
    ({ s with subq := s.subq.set k.toNat rest k.isLt } : State).slotQueue j =
      if j = k then rest else s.slotQueue j := by
  have h := subq_set_getElem s k rest ⟨j.toNat, j.isLt⟩
  simp only [BitVec.toNat_inj, eq_comm (a := k)] at h
  exact h

/-! ### The fan-out's turn, by its guards -/

/-- A Running fan-out with no stop requested, and the frames it has before it. -/
structure State.Delivering (s : State) (frames : List Frame) : Prop where
  running : s.fanState = .running
  goesOn : s.stopReq = false
  queued : s.frameq = frames

theorem fanTurn_of_not_running {s : State} (h : s.fanState ≠ .running) : s.fanTurn = s := if_neg h

theorem fanTurn_of_stopReq {s : State} (hr : s.fanState = .running) (hs : s.stopReq = true) :
    s.fanTurn = s.fanStop := by
  rcases fanTurn_cases s with ⟨h, _⟩ | ⟨_, _, he⟩ | ⟨_, h, _⟩ | ⟨_, h, _⟩
  · exact absurd hr h
  · exact he
  · cases hs.symm.trans h
  · cases hs.symm.trans h

theorem fanTurn_isConnected (s : State) (k : Nat) : s.fanTurn.isConnected k = s.isConnected k :=
  congrArg (BitVec.getLsbD · k) (fanTurn_connected s)

theorem iterate_fanTurn_isConnected (k : Nat) : ∀ (n : Nat) (s : State),
    (State.fanTurn^[n] s).isConnected k = s.isConnected k
  | 0, _ => rfl
  | n + 1, s => (iterate_fanTurn_isConnected k n s.fanTurn).trans (fanTurn_isConnected s k)

namespace State.Delivering

variable {s : State} {f : Frame} {rest : List Frame}

theorem fanTurn_nil (h : s.Delivering []) : s.fanTurn = s := by
  rcases fanTurn_cases s with ⟨_, he⟩ | ⟨_, hs, _⟩ | ⟨_, _, _, he⟩ | ⟨_, _, f, rest, hq, _⟩
  · exact he
  · cases hs.symm.trans h.goesOn
  · exact he
  · cases hq.symm.trans h.queued

theorem fanTurn_cons (h : s.Delivering (f :: rest)) :
    s.fanTurn = { s with frameq := rest, subq := s.deliver f } := by
  rcases fanTurn_cases s with ⟨hr, _⟩ | ⟨_, hs, _⟩ | ⟨_, _, hq, _⟩ | ⟨_, _, g, tail, hq, he⟩
  · exact absurd h.running hr
  · cases hs.symm.trans h.goesOn
  · cases hq.symm.trans h.queued
  · cases hq.symm.trans h.queued
    exact he

/-- One turn's delivery, in each slot's queue (R263). -/
theorem fanTurn_slotQueue (h : s.Delivering (f :: rest)) (k : BitVec 4) :
    s.fanTurn.slotQueue k = if s.isConnected k.toNat then s.slotQueue k ++ [f] else s.slotQueue k := by
  rw [h.fanTurn_cons]
  exact deliver_getElem s f k.toNat k.isLt

theorem fanTurn (h : s.Delivering (f :: rest)) : s.fanTurn.Delivering rest := by
  rw [h.fanTurn_cons]
  exact ⟨h.running, h.goesOn, rfl⟩

/-- A run of turns delivers the frames at the head of `frameq`, one a turn. -/
theorem iterate : ∀ {frames : List Frame} {s : State}, s.Delivering (frames ++ rest) →
    (State.fanTurn^[frames.length] s).Delivering rest
  | [], _, h => h
  | _ :: frames, _, h => iterate (frames := frames) (fanTurn h)

/-- Through a run of deliveries a slot connected at its start gains all its frames, in their order, and any other slot
none (R265, R266). -/
theorem iterate_slotQueue (k : BitVec 4) : ∀ {frames : List Frame} {s : State}, s.Delivering (frames ++ rest) →
    (State.fanTurn^[frames.length] s).slotQueue k =
      if s.isConnected k.toNat then s.slotQueue k ++ frames else s.slotQueue k
  | [], s, _ => by simp
  | f :: frames, s, h => by
    have ih := iterate_slotQueue k h.fanTurn
    rw [fanTurn_isConnected, h.fanTurn_slotQueue] at ih
    rw [List.length_cons, Function.iterate_succ_apply, ih]
    cases s.isConnected k.toNat <;> simp

end State.Delivering

/-- A CONNECT between two turns widens the subscriber set by its slot; what is to be delivered and what the slots hold
stay (R261). -/
theorem issue_connect (s : State) (k : BitVec 4) :
    ∃ u, issue (.connect k) .empty s = .next u ∧ (∀ frames, s.Delivering frames → u.Delivering frames) ∧
      (∀ j : BitVec 4, u.isConnected j.toNat = (s.isConnected j.toNat || j == k)) ∧
      ∀ j, u.slotQueue j = s.slotQueue j :=
  ⟨_, exec_connect (s := s.present .empty) rfl, fun _ ⟨hr, hs, hq⟩ => ⟨hr, hs, hq⟩,
    isConnected_withSlot_eq _ k, fun _ => rfl⟩

end Sys2Proof.Machine

open Sys2Proof Sys2Proof.Machine

/-- Settles O50: CONNECT adds its slot's bit to the subscriber set, where it may stand already. -/
theorem connectSetsOneSlot : Obligations.ConnectSetsOneSlot := by
  intro s k hd
  refine ⟨_, exec_connect hd, rfl, isConnected_withSlot_eq s k, fun hk => ?_⟩
  rw [withSlot_of_connected hk]

/-- Settles O51, by POP's cases: the connection, then the queue. -/
theorem popTakesHead : Obligations.PopTakesHead := by
  intro s k hd
  rcases execPop_cases k s hd with ⟨hc, he⟩ | ⟨hc, hq, he⟩ | ⟨hc, g, tail, hq, he⟩
  · exact ⟨fun _ _ h => (nomatch hc.symm.trans h), fun h => (nomatch hc.symm.trans h), fun _ => he⟩
  · exact ⟨fun _ _ _ h => (nomatch hq.symm.trans h), fun _ _ => he, fun h => (nomatch hc.symm.trans h)⟩
  · refine ⟨fun f rest _ hfr => ?_, fun _ h => (nomatch hq.symm.trans h), fun h => (nomatch hc.symm.trans h)⟩
    cases hq.symm.trans hfr
    exact ⟨_, he, rfl, fun j => slotQueue_set s k j tail⟩

/-- Settles O52, by the turn's guards. -/
theorem fanoutTurn : Obligations.FanoutTurn := by
  intro s
  refine ⟨fanTurn_of_stopReq, fun f rest hr hs hq => ?deliver, fun hr hs hq => ?idle, fanTurn_of_not_running⟩
  case deliver =>
    have h : s.Delivering (f :: rest) := ⟨hr, hs, hq⟩
    refine ⟨_, rfl, ?_, h.fanTurn_slotQueue⟩
    rw [h.fanTurn_cons]
  case idle =>
    have h : s.Delivering [] := ⟨hr, hs, hq⟩
    exact h.fanTurn_nil

/-- Settles O53: two runs of deliveries, of `early` to the slots connected at first and of `late` to these and slot `k`. -/
theorem noReplayAfterConnect : Obligations.NoReplayAfterConnect := by
  intro s k early late hr hs hq hk
  have hbefore : s.Delivering (early ++ late) := ⟨hr, hs, hq⟩
  obtain ⟨u, hu, hdelivering, hconn, hqueue⟩ := issue_connect (State.fanTurn^[early.length] s) k
  have hafter : u.Delivering (late ++ []) := by
    rw [List.append_nil]
    exact hdelivering late hbefore.iterate
  have hslots (j : BitVec 4) : (State.fanTurn^[late.length] u).slotQueue j =
      if s.isConnected j.toNat || j == k then u.slotQueue j ++ late else u.slotQueue j := by
    rw [hafter.iterate_slotQueue, hconn, iterate_fanTurn_isConnected]
  refine ⟨u, hu, ?new, hafter.iterate.queued, fun j hj => ?old⟩
  case new => simp [hslots, hqueue, hbefore.iterate_slotQueue, hk]
  case old => simp [hslots, hqueue, hbefore.iterate_slotQueue, hj]

end

section
/-! Failures and stops (R291, R299): what a failing command answers and keeps, and that no command and no turn stops the
block; O56 and O9. -/

namespace Sys2Proof.Machine

/-! ### A failing command -/

/-- The two ways to a status other than OK: a failed check, and a START whose tuner call fails (R291). -/
theorem CommandEffect.of_status_ne_ok {s t : State} {i : Instr} {r : Response} (h : CommandEffect s i t)
    (hr : t.env.response = some r) (hne : r.status ≠ .ok) :
    r.data = .nothing ∧ ((i = .start ∧ r.status = .setFrequencyFailed) ∨ t = s.respond r.status .nothing) := by
  cases h with
  | fails => cases hr; exact ⟨rfl, .inr rfl⟩
  | startFaults => cases hr; exact ⟨rfl, .inl ⟨rfl, rfl⟩⟩
  | _ => cases hr; exact absurd rfl hne

/-! ### Outcomes that are next states -/

/-- The outcome is a next state: no fault and no refusal. -/
def IsNext (r : Result) : Prop := ∃ t, r = .next t

theorem isNext_next (t : State) : IsNext (.next t) := ⟨t, rfl⟩

theorem isNext_raise (s : State) (e : Status) : IsNext (s.raise e) := isNext_next _

theorem isNext_complete (s : State) (d : Data) : IsNext (s.complete d) := isNext_next _

theorem isNext_ite {p : Prop} [Decidable p] {a b : Result} (ha : IsNext a) (hb : IsNext b) :
    IsNext (if p then a else b) := by
  split
  · exact ha
  · exact hb

theorem isNext_answer (s : State) (r : Except Status Data) : IsNext (s.answer r) := by
  rcases answer_cases s r with ⟨_, _, he⟩ | ⟨_, _, he⟩ <;> exact ⟨_, he⟩

theorem isNext_storeCrc (s : State) (r : Except Status CrcUnit) : IsNext (s.storeCrc r) := by
  rcases storeCrc_cases s r with ⟨_, _, he⟩ | ⟨_, _, he⟩ <;> exact ⟨_, he⟩

/-! ### A command whose operand is checked first -/

theorem isNext_withEmpty {s : State} {r : Result} (h : s.env.operand = .empty → IsNext r) : IsNext (s.withEmpty r) := by
  rcases withEmpty_cases s r with ⟨hd, he⟩ | ⟨_, he⟩
  · rw [he]
    exact h hd
  · exact ⟨_, he⟩

theorem isNext_withBits {s : State} {k : Bits → Result} (h : ∀ b, IsNext (k b)) : IsNext (s.withBits k) := by
  rcases withBits_cases s k with ⟨b, _, he⟩ | ⟨_, he⟩
  · rw [he]
    exact h b
  · exact ⟨_, he⟩

theorem isNext_withWord {s : State} {k : Word → Result} (h : ∀ v, IsNext (k v)) : IsNext (s.withWord k) := by
  rcases withWord_cases s k with ⟨v, _, he⟩ | ⟨_, he⟩
  · rw [he]
    exact h v
  · exact ⟨_, he⟩

theorem isNext_withStrings {s : State} {a l w : Nat} {k : List Byte → List Byte → List Byte → Result}
    (h : ∀ x y z, IsNext (k x y z)) : IsNext (s.withStrings a l w k) := by
  rcases withStrings_cases s a l w k with ⟨x, y, z, _, _, _, _, he⟩ | he
  · rw [he]
    exact h x y z
  · exact ⟨_, he⟩

/-! ### Every command -/

theorem isNext_execCfgWrite (r : BitVec 8) (s : State) : IsNext (execCfgWrite r s) :=
  isNext_withWord fun v => isNext_ite (isNext_raise s _) <| isNext_ite (isNext_raise s _) <| by
    cases s.regs.write (Reg.ofNumber r) v with
    | ok c => exact isNext_complete _ _
    | error e => exact isNext_raise s e

theorem isNext_execStart (s : State) : IsNext (execStart s) := by
  by_cases hs : s.StartChecks
  · rw [execStart_of_checks s hs]
    exact isNext_ite (isNext_next _) (isNext_next _)
  · obtain ⟨_, he⟩ := execStart_of_not_checks s hs
    exact ⟨_, he⟩

theorem isNext_execPop (k : BitVec 4) (s : State) : IsNext (execPop k s) := by
  by_cases hd : s.env.operand = .empty
  · rcases execPop_cases k s hd with ⟨_, he⟩ | ⟨_, _, he⟩ | ⟨_, _, _, _, he⟩ <;> exact ⟨_, he⟩
  · exact isNext_withEmpty fun h => absurd h hd

/-- Every command has a meaning, and no meaning stops the block (R291, R299). -/
theorem isNext_exec (s : State) : ∀ i : Instr, IsNext (exec i s)
  | .crcSeqW0 | .crcSeqW3 => isNext_withBits fun _ => isNext_raise s _
  | .crc8 | .crc16 => isNext_withBits fun _ => isNext_complete s _
  | .crcInit _ | .crcShift _ => isNext_withEmpty fun _ => isNext_storeCrc s _
  | .crcRead | .cfgRead _ => isNext_withEmpty fun _ => isNext_answer s _
  | .encode _ _ _ _ _ => isNext_withStrings fun _ _ _ => isNext_ite (isNext_raise s _) (isNext_answer s _)
  | .decode _ _ _ _ => isNext_withBits fun _ => isNext_ite (isNext_raise s _) (isNext_answer s _)
  | .cfgWrite r => isNext_execCfgWrite r s
  | .start => isNext_execStart s
  | .stop => isNext_withEmpty fun _ => isNext_complete _ _
  | .pushCand => isNext_withBits fun _ => isNext_ite (isNext_complete _ _) (isNext_next _)
  | .connect _ => isNext_withEmpty fun _ => isNext_ite (isNext_raise s _) (isNext_complete _ _)
  | .pop k => isNext_execPop k s

end Sys2Proof.Machine

open Sys2Proof Sys2Proof.Machine

/-- Settles O56, read off the effects of a command. -/
theorem failingCommandChangesNothing : Obligations.FailingCommandChangesNothing :=
  fun _ _ _ _ hexec => (exec_effect hexec).of_status_ne_ok

/-- Settles O9: a command event runs its command or answers IllegalCommand, and the other events have one step each. -/
theorem everyStepAnswersNext : Obligations.EveryStepAnswersNext := by
  intro s
  cases he : s.nextEvent with
  | command w d =>
    cases hw : decode w with
    | ok i =>
      rw [step_of_decoded he hw]
      exact isNext_exec _ i
    | error x => exact ⟨_, step_of_rejected he hw⟩
  | pipeTurn => exact ⟨_, step_of_pipeTurn he⟩
  | fanTurn => exact ⟨_, step_of_fanTurn he⟩
  | reset => exact ⟨_, step_of_reset he⟩

end
